-- ==== Sys2Proof/Word.lean ====
section
/-! DEFINITION. The word types of the block and the container for four like things (one per channel). -/

namespace Sys2Proof

/-- 8 bits (00_scope.md R7). -/
abbrev Byte := BitVec 8

/-- 16 bits: a pak address (R64), `erase_page` (R20), the FlashRAM argument (R62). -/
abbrev Half := BitVec 16

/-- 32 bits: a bus value, `flash.status`, a Silicon-ID word (R18, R22, R53). -/
abbrev Word := BitVec 32

/-- A controller port, "four channels, numbered 0 to 3" (00_scope.md R5). -/
abbrev Channel := Fin 4

/-- One value for each of the four channels. -/
structure Quad (α : Type) where
  c0 : α
  c1 : α
  c2 : α
  c3 : α
deriving DecidableEq, Repr

namespace Quad

/-- The same value for each channel. -/
def all {α : Type} (a : α) : Quad α := ⟨a, a, a, a⟩

/-- The value of channel `c`. -/
def get {α : Type} (q : Quad α) (c : Channel) : α :=
  match c with
  | 0 => q.c0
  | 1 => q.c1
  | 2 => q.c2
  | 3 => q.c3

/-- Replace the value of channel `c`. -/
def set {α : Type} (q : Quad α) (c : Channel) (a : α) : Quad α :=
  match c with
  | 0 => { q with c0 := a }
  | 1 => { q with c1 := a }
  | 2 => { q with c2 := a }
  | 3 => { q with c3 := a }

end Quad
end Sys2Proof
end

