-- ==== Sys2Proof/Config.lean ====
section
/-! DEFINITION. What an implementation fixes: the sizes the spec states (00_scope.md R5), the launch parameters it
leaves without a value (R6), and the free values, constants with no body that nothing can evaluate. -/

namespace Sys2Proof

/-- The three pak kinds; "no fourth kind exists" (42_pak_handler_and_switch.md R110). -/
inductive PakKind where
  | memPak
  | rumblePak
  | transferPak
deriving DecidableEq, Repr

/-- `vru.voice_state` (10_state.md R26). -/
inductive VoiceState where
  | ready
  | start
  | busy
deriving DecidableEq, Repr, Inhabited

/-- Which protocol a channel speaks, `CHANNEL_DEVICE[c]` (00_scope.md R6). -/
inductive Device where
  | controller
  | vru
  | absent
deriving DecidableEq, Repr

/-- The subsystems that have a fault latch (10_state.md R34). -/
inductive Subsystem where
  | pif
  | flash
  | sram
  | vru
deriving DecidableEq, Repr

/-- The fatal kinds, in the order of their codes 1 to 8 (60_exceptions.md R197). -/
inductive FatalKind where
  | pifContract
  | invalidRotation
  | flashUnknownCommand
  | flashMmioShape
  | flashDmaShape
  | flashRange
  | sramMisaligned
  | vruUnmappedWord
deriving DecidableEq, Repr

/-- `GESTURE_WITHOUT_PAK` (R96): the open point, refused (D6), and its three candidates (log 13). -/
inductive GesturePolicy where
  | refuse
  | ignore
  | schedule
  | fatal
deriving DecidableEq, Repr

/-- `VRU_CONFIG_WINDOW`, the start of the 4-byte window of `WRITE_CONFIG` (45_vru.md R190): a fixed PIF RAM index, or
a fixed distance from the transmit part. -/
inductive VruWindow where
  | absolute (i : Nat)
  | afterTx (k : Nat)
deriving DecidableEq, Repr

/-- The launch parameters of 00_scope.md R6. They stand in `State` and no operation writes them, so that every
statement holds for every value of them. `PIF_RAM_SIZE` and `DRAM.len` are the lengths of those memories. -/
structure Params where
  clockRate : Nat
  flavor0 : Byte
  flavor1 : Byte
  pakPresent : Byte
  pakAbsent : Byte
  programBusyBit : Fin 32
  eraseBusyBit : Fin 32
  programSuccessBit : Fin 32
  eraseSuccessBit : Fin 32
  siliconId0 : Word
  siliconId1 : Word
  remapX2Ids : List Word
  dramIndexXor : Nat
  device : Quad Device
  romRegion : Byte
  gestureWithoutPak : GesturePolicy
  netplay : Bool
  vruWindow : VruWindow
  vruReadLen : Nat
  vruReadStatusLen : Nat
  vruWriteConfigLen : Nat
  wordMappings : List (String × String)
deriving DecidableEq, Repr

namespace Config

/-- Bytes of the FlashRAM store (R5). -/
def flashSize : Nat := 131072
/-- Bytes of a FlashRAM page (R5). -/
def pageSize : Nat := 128
/-- Bytes of a FlashRAM sector (R5). -/
def sectorSize : Nat := 16384
/-- Bytes of the SRAM store (R5). -/
def sramSize : Nat := 32768
/-- Bytes of a pak transfer (R5). -/
def pakChunk : Nat := 32
/-- Slots of the VRU word buffer (R5). -/
def vruSlots : Nat := 40
/-- The VRU "no match" index (30_encoding.md R74 b). -/
def noMatch : Nat := 0x7FFF

/-- The defaults of 00_scope.md R6; the values R6 does not give are log 3, 4, 18 and 19. -/
def defaultParams : Params where
  clockRate := 93750000
  flavor0 := 0x05#8
  flavor1 := 0x00#8
  pakPresent := 0x01#8
  pakAbsent := 0x02#8
  programBusyBit := 0
  eraseBusyBit := 1
  programSuccessBit := 2
  eraseSuccessBit := 3
  siliconId0 := 0x11118001#32
  siliconId1 := 0x00C2001E#32
  remapX2Ids := [0x00C2001E#32, 0x00C20000#32, 0x00C20001#32]
  dramIndexXor := 0
  device := ⟨.controller, .controller, .controller, .vru⟩
  romRegion := 0x45#8
  gestureWithoutPak := .refuse
  netplay := false
  vruWindow := .afterTx 3
  vruReadLen := 36
  vruReadStatusLen := 3
  vruWriteConfigLen := 1
  wordMappings := []

end Config

/-- One channel's part of `pak_state` (10_state.md R17), "the pak's own state", which R210 gives each channel: an
opaque token that only the constants below compute with. -/
abbrev PakState := Nat

/-- The arguments of `PakModel.read` and `PakModel.write` (42_pak_handler_and_switch.md R110). -/
structure PakCall where
  kind : PakKind
  channel : Channel
  address : Half
  dataOffset : Nat
  size : Nat
deriving DecidableEq, Repr

/-! ### `PakModel`, a parameter of the model (R110 to R112, log 9) -/

/-- Byte `i` that `PakModel.read` delivers. -/
opaque Config.pakReadByte : PakCall → PakState → Nat → Byte
/-- The channel's pak state after `PakModel.read`. -/
opaque Config.pakReadState : PakCall → PakState → PakState
/-- The channel's pak state after `PakModel.write` of these data bytes. -/
opaque Config.pakWriteState : PakCall → List Byte → PakState → PakState
/-- The `ui.rumble(c, on)` calls `PakModel.write` makes, in order. -/
opaque Config.pakWriteRumble : PakCall → List Byte → PakState → List Bool
/-- A channel's pak state after "stop any active rumble output" of that channel (R118). -/
opaque Config.pakStopRumble : Channel → PakState → PakState

/-! ### Free values; the first argument is the draw counter (log 29) -/

/-- PIF RAM byte `i` after `DeviceReset`, "unspecified (any bytes)" (R14, R39; log 5). -/
opaque Config.resetPifByte : Nat → Nat → Byte
/-- A channel's part of `pak_state` after `DeviceReset`, "unspecified" (R17, R39; log 9). -/
opaque Config.resetPakState : Nat → Channel → PakState
/-- `vru.status` after a VRU reset (R177, log 21). -/
opaque Config.vruResetStatus : Nat → Nat
/-- `vru.load_offset` after a VRU reset (R177, log 21). -/
opaque Config.vruResetLoadOffset : Nat → Nat
/-- `vru.voice_init` after a VRU reset (R177, log 21). -/
opaque Config.vruResetVoiceInit : Nat → Nat
/-- Slot `i` of `vru.word_buffer` after a VRU reset (R177, log 21). -/
opaque Config.vruResetSlot : Nat → Nat → Nat
/-- Byte `i` of the identifier and status bytes a VRU answers `STATUS` and `RESET` with (R176, log 15). -/
opaque Config.vruIdentByte : Nat → Nat → Byte
/-- Byte `i` of the response of `VRU_READ` with this result index (R179, log 17); arguments: draw, index, `i`. -/
opaque Config.vruReadByte : Nat → Nat → Nat → Byte
/-- `vru.words` after `VRU_READ` (R179, log 17). -/
opaque Config.vruReadWords : Nat → List String
/-- `vru.status` after `VRU_READ` (R179, log 17). -/
opaque Config.vruReadStatus : Nat → Nat
/-- The index of a chosen word that is not in the list (R179, log 34). -/
opaque Config.vruUnlistedIndex : Nat → Nat
/-- Whether "pending words exist" (R181, log 18). -/
opaque Config.vruWordsPending : Nat → Bool
/-- The word of the buffer's length-prefixed byte sequence, in the unstated text encoding (R181, log 18). -/
opaque Config.vruText : List Nat → String
/-- The fixed-width hex string of the buffer's remaining slots (R181, log 18). -/
opaque Config.vruHexCode : List Nat → String
/-- Byte `i` of the response of `VRU_READ_STATUS` (R181, log 18). -/
opaque Config.vruReadStatusByte : Nat → Nat → Byte
/-- Byte `i` of the response of `VRU_WRITE_CONFIG` (R182, log 19). -/
opaque Config.vruWriteConfigByte : Nat → Nat → Byte
/-- Whether these frame bytes, from `tx_buf` on, are the "raw reset sub-command" (R184, log 19). -/
opaque Config.vruRawReset : List Byte → Bool

end Sys2Proof
end

