-- ==== Sys2Proof/Syntax.lean ====
section
/-! DEFINITION. The instructions of the block, one constructor per row of opcode_table.json, and the forms in which
they are presented and encoded (10_state.md R12, 30_encoding.md R60 to R63). -/

namespace Sys2Proof

/-- `flash.mode`, "one of exactly six values" (10_state.md R19). -/
inductive FlashMode where
  | readArray
  | readSiliconId
  | status
  | sectorErase
  | chipErase
  | pageProgram
deriving DecidableEq, Repr

/-- The persisted fields (10_state.md R36) and the kind tags (70_reset_and_hazards.md R231): the operand of
`LoadState`. `word_mappings` is configuration (90_conflicts.md C7) and has no field here (log 23). -/
structure Saved where
  flashStatus : Word
  flashMode : FlashMode
  flashErasePage : Half
  flashPageBuf : List Byte
  flashSiliconId0 : Word
  flashSiliconId1 : Word
  vruStatus : Nat
  vruVoiceState : VoiceState
  vruLoadOffset : Nat
  vruVoiceInit : Nat
  vruWordBuffer : List Nat
  vruWords : List String
  vruTalking : Bool
  kinds : Quad (Option PakKind)
deriving DecidableEq, Repr

/-- The two event tags (10_state.md R31). -/
inductive EventTag where
  | pakSwitch
  | vruTimeout
deriving DecidableEq, Repr

/-- The instructions. A JCMD constructor carries the channel and the two frame offsets of its `PifProcess`
(`rx` absent or present); its other frame bytes are read from PIF RAM when it runs (20_memory.md R58). -/
inductive Instr where
  | status (c : Channel) (tx : Nat) (rx : Option Nat)
  | controllerRead (c : Channel) (tx : Nat) (rx : Option Nat)
  | pakRead (c : Channel) (tx : Nat) (rx : Option Nat)
  | pakWrite (c : Channel) (tx : Nat) (rx : Option Nat)
  | reset (c : Channel) (tx : Nat) (rx : Option Nat)
  | vruRead (c : Channel) (tx : Nat) (rx : Option Nat)
  | vruWrite (c : Channel) (tx : Nat) (rx : Option Nat)
  | vruReadStatus (c : Channel) (tx : Nat) (rx : Option Nat)
  | vruWriteConfig (c : Channel) (tx : Nat) (rx : Option Nat)
  | vruWriteInit (c : Channel) (tx : Nat) (rx : Option Nat)
  | flChipEraseMode
  | flSectorEraseMode (arg16 : Half)
  | flEraseExecute
  | flProgramExecute (arg16 : Half)
  | flPageProgramMode
  | flStatusMode
  | flReadSiliconIdMode
  | flReadArrayMode
  | flashMmioRead (addr : Nat)
  | flashMmioWrite (addr : Nat) (value mask : Word)
  | flashDmaRead (cart dram len : Nat)
  | flashDmaWrite (cart dram len : Nat)
  | sramMmioRead (addr : Nat)
  | sramMmioWrite (addr : Nat) (value mask : Word)
  | sramDmaRead (cart dram len : Nat)
  | sramDmaWrite (cart dram len : Nat)
  | pakSwitchEvent
  | vruTimeoutEvent
  | deviceReset
  | installPak (c : Channel) (kind : PakKind)
  | loadState (f : Saved)
deriving DecidableEq, Repr

/-- The operations of 10_state.md R12 that carry no frame: the port selects them (30_encoding.md R63). -/
inductive BusOp where
  | flashMmioRead (addr : Nat)
  | flashMmioWrite (addr : Nat) (value mask : Word)
  | flashDmaRead (cart dram len : Nat)
  | flashDmaWrite (cart dram len : Nat)
  | sramMmioRead (addr : Nat)
  | sramMmioWrite (addr : Nat) (value mask : Word)
  | sramDmaRead (cart dram len : Nat)
  | sramDmaWrite (cart dram len : Nat)
  | pakSwitchEvent
  | vruTimeoutEvent
  | deviceReset
  | installPak (c : Channel) (kind : PakKind)
  | loadState (f : Saved)
deriving DecidableEq, Repr

/-- The closed list of operations at the interface (10_state.md R12). -/
inductive Op where
  | pifProcess (c : Channel) (tx rx : Option Nat)
  | bus (b : BusOp)
deriving DecidableEq, Repr

/-- What the decoder is given, by format (30_encoding.md R60, R62, R63): a frame's code byte with the device of its
channel and its offsets, a FlashRAM command word, or a bus operation. -/
inductive Fetched where
  | jcmd (d : Device) (c : Channel) (tx : Nat) (rx : Option Nat) (code : Byte)
  | flcmd (word : Word)
  | busop (b : BusOp)
deriving DecidableEq, Repr

/-- Why the decoder rejects (30_encoding.md R70). -/
inductive Reject where
  /-- A code outside the channel's map (R70 a). -/
  | unknownJcmd (code : Byte)
  /-- One of the 248 illegal FlashRAM opcodes (R70 b). -/
  | unknownFlashCommand (word : Word)
  /-- A frame for a channel that has no device (log 14). -/
  | absentChannel (c : Channel)
deriving DecidableEq, Repr

end Sys2Proof
end

