-- ==== Sys2Proof/WellFormed.lean ====
section
/-! DEFINITION. What the types of `Syntax` do not say of an instruction's operands. -/

namespace Sys2Proof

/-- "A model that admits `LoadState` must take the typing of each field ... as a premise" (70_reset_and_hazards.md
R231): the page buffer has 128 bytes (10_state.md R21). -/
def Saved.pageBufOk (f : Saved) : Bool := f.flashPageBuf.length == Config.pageSize

/-- The word buffer has 40 slots (10_state.md R28). -/
def Saved.wordBufferOk (f : Saved) : Bool := f.vruWordBuffer.length == Config.vruSlots

/-- Both length checks. -/
def Saved.wellFormed (f : Saved) : Bool := f.pageBufOk && f.wordBufferOk

/-- Every other operand is well formed by its type: offsets, addresses and lengths are naturals (10_state.md R12). -/
def Instr.wellFormed (i : Instr) : Bool :=
  match i with
  | .loadState f => f.wellFormed
  | .status _ _ _ | .controllerRead _ _ _ | .pakRead _ _ _ | .pakWrite _ _ _ | .reset _ _ _
  | .vruRead _ _ _ | .vruWrite _ _ _ | .vruReadStatus _ _ _ | .vruWriteConfig _ _ _ | .vruWriteInit _ _ _
  | .flChipEraseMode | .flSectorEraseMode _ | .flEraseExecute | .flProgramExecute _ | .flPageProgramMode
  | .flStatusMode | .flReadSiliconIdMode | .flReadArrayMode
  | .flashMmioRead _ | .flashMmioWrite _ _ _ | .flashDmaRead _ _ _ | .flashDmaWrite _ _ _
  | .sramMmioRead _ | .sramMmioWrite _ _ _ | .sramDmaRead _ _ _ | .sramDmaWrite _ _ _
  | .pakSwitchEvent | .vruTimeoutEvent | .deviceReset | .installPak _ _ => true

/-- A presented bus operation is well formed when its `LoadState` operand is. -/
def BusOp.wellFormed (b : BusOp) : Bool :=
  match b with
  | .loadState f => f.wellFormed
  | .flashMmioRead _ | .flashMmioWrite _ _ _ | .flashDmaRead _ _ _ | .flashDmaWrite _ _ _
  | .sramMmioRead _ | .sramMmioWrite _ _ _ | .sramDmaRead _ _ _ | .sramDmaWrite _ _ _
  | .pakSwitchEvent | .vruTimeoutEvent | .deviceReset | .installPak _ _ => true

/-- A presented operation is well formed when its bus operation is. -/
def Op.wellFormed (o : Op) : Bool :=
  match o with
  | .pifProcess _ _ _ => true
  | .bus b => b.wellFormed

end Sys2Proof
end

