-- ==== Sys2Proof/Decode.lean ====
section
/-! DEFINITION. The decoder and, after it, the encoder, from the opcode maps of 30_encoding.md R67, R68, R69 and the
formats R60, R62, R63. -/

namespace Sys2Proof

/-! ### Decoder -/

/-- The map of a `Controller` channel (R67). -/
def decodeControllerCode (c : Channel) (tx : Nat) (rx : Option Nat) (code : Byte) : Option Instr :=
  match code.toNat with
  | 0x00 => some (.status c tx rx)
  | 0x01 => some (.controllerRead c tx rx)
  | 0x02 => some (.pakRead c tx rx)
  | 0x03 => some (.pakWrite c tx rx)
  | 0xFF => some (.reset c tx rx)
  | _ => none

/-- The five codes a `Vru` channel adds (R68). -/
def decodeVruCode (c : Channel) (tx : Nat) (rx : Option Nat) (code : Byte) : Option Instr :=
  match code.toNat with
  | 0x09 => some (.vruRead c tx rx)
  | 0x0A => some (.vruWrite c tx rx)
  | 0x0B => some (.vruReadStatus c tx rx)
  | 0x0C => some (.vruWriteConfig c tx rx)
  | 0x0D => some (.vruWriteInit c tx rx)
  | _ => none

/-- The opcode field of a FlashRAM command, `value[31:24]` (R62). -/
def flOpcode (w : Word) : Byte := w.extractLsb' 24 8

/-- The argument field of a FlashRAM command, `value[15:0]` (R62). -/
def flArg16 (w : Word) : Half := w.extractLsb' 0 16

/-- The FlashRAM opcode map (R69); `value[23:16]`, and the argument of the six commands that take none, are
ignored (R62). -/
def decodeFlash (w : Word) : Option Instr :=
  match (flOpcode w).toNat with
  | 0x3C => some .flChipEraseMode
  | 0x4B => some (.flSectorEraseMode (flArg16 w))
  | 0x78 => some .flEraseExecute
  | 0xA5 => some (.flProgramExecute (flArg16 w))
  | 0xB4 => some .flPageProgramMode
  | 0xD2 => some .flStatusMode
  | 0xE1 => some .flReadSiliconIdMode
  | 0xF0 => some .flReadArrayMode
  | _ => none

/-- A bus operation is selected by its port alone (R63). -/
def decodeBus (b : BusOp) : Instr :=
  match b with
  | .flashMmioRead a => .flashMmioRead a
  | .flashMmioWrite a v m => .flashMmioWrite a v m
  | .flashDmaRead c d n => .flashDmaRead c d n
  | .flashDmaWrite c d n => .flashDmaWrite c d n
  | .sramMmioRead a => .sramMmioRead a
  | .sramMmioWrite a v m => .sramMmioWrite a v m
  | .sramDmaRead c d n => .sramDmaRead c d n
  | .sramDmaWrite c d n => .sramDmaWrite c d n
  | .pakSwitchEvent => .pakSwitchEvent
  | .vruTimeoutEvent => .vruTimeoutEvent
  | .deviceReset => .deviceReset
  | .installPak c k => .installPak c k
  | .loadState f => .loadState f

/-- The code byte of a frame: the map is chosen by the channel's device (R71); a VRU's is a "superset of the generic
channel commands" (R68). -/
def decodeJcmd (d : Device) (c : Channel) (tx : Nat) (rx : Option Nat) (code : Byte) : Except Reject Instr :=
  match d with
  | .absent => .error (.absentChannel c)
  | .controller =>
    match decodeControllerCode c tx rx code with
    | some i => .ok i
    | none => .error (.unknownJcmd code)
  | .vru =>
    match decodeControllerCode c tx rx code with
    | some i => .ok i
    | none =>
      match decodeVruCode c tx rx code with
      | some i => .ok i
      | none => .error (.unknownJcmd code)

/-- The decoder, total on everything that can be fetched. -/
def decode (f : Fetched) : Except Reject Instr :=
  match f with
  | .jcmd d c tx rx code => decodeJcmd d c tx rx code
  | .flcmd w =>
    match decodeFlash w with
    | some i => .ok i
    | none => .error (.unknownFlashCommand w)
  | .busop b => .ok (decodeBus b)

/-! ### Encoder -/

/-- A FlashRAM command word: opcode in 31:24, zeros in 23:16, the argument in 15:0 (R62). -/
def flWord (opcode : Byte) (arg16 : Half) : Word := opcode ++ (0#8 ++ arg16)

/-- The encoding of an instruction in its own format (R60 to R63, R67 to R69). -/
def encode (i : Instr) : Fetched :=
  match i with
  | .status c tx rx => .jcmd .controller c tx rx 0x00#8
  | .controllerRead c tx rx => .jcmd .controller c tx rx 0x01#8
  | .pakRead c tx rx => .jcmd .controller c tx rx 0x02#8
  | .pakWrite c tx rx => .jcmd .controller c tx rx 0x03#8
  | .reset c tx rx => .jcmd .controller c tx rx 0xFF#8
  | .vruRead c tx rx => .jcmd .vru c tx rx 0x09#8
  | .vruWrite c tx rx => .jcmd .vru c tx rx 0x0A#8
  | .vruReadStatus c tx rx => .jcmd .vru c tx rx 0x0B#8
  | .vruWriteConfig c tx rx => .jcmd .vru c tx rx 0x0C#8
  | .vruWriteInit c tx rx => .jcmd .vru c tx rx 0x0D#8
  | .flChipEraseMode => .flcmd (flWord 0x3C#8 0#16)
  | .flSectorEraseMode a => .flcmd (flWord 0x4B#8 a)
  | .flEraseExecute => .flcmd (flWord 0x78#8 0#16)
  | .flProgramExecute a => .flcmd (flWord 0xA5#8 a)
  | .flPageProgramMode => .flcmd (flWord 0xB4#8 0#16)
  | .flStatusMode => .flcmd (flWord 0xD2#8 0#16)
  | .flReadSiliconIdMode => .flcmd (flWord 0xE1#8 0#16)
  | .flReadArrayMode => .flcmd (flWord 0xF0#8 0#16)
  | .flashMmioRead a => .busop (.flashMmioRead a)
  | .flashMmioWrite a v m => .busop (.flashMmioWrite a v m)
  | .flashDmaRead c d n => .busop (.flashDmaRead c d n)
  | .flashDmaWrite c d n => .busop (.flashDmaWrite c d n)
  | .sramMmioRead a => .busop (.sramMmioRead a)
  | .sramMmioWrite a v m => .busop (.sramMmioWrite a v m)
  | .sramDmaRead c d n => .busop (.sramDmaRead c d n)
  | .sramDmaWrite c d n => .busop (.sramDmaWrite c d n)
  | .pakSwitchEvent => .busop .pakSwitchEvent
  | .vruTimeoutEvent => .busop .vruTimeoutEvent
  | .deviceReset => .busop .deviceReset
  | .installPak c k => .busop (.installPak c k)
  | .loadState f => .busop (.loadState f)

/-! ### Words of the opcode table (log 2) -/

/-- Where a table word is placed: a code byte is a frame at `tx_buf = 0`, `rx_buf = 3`, on channel 3 for a VRU code
and on channel 0 for any other; a 17-bit word selects the FlashRAM MMIO port whose legal offset it is (R63). The rows
of no bits have no word. -/
def tableFetched (nbits w : Nat) : Option Fetched :=
  if nbits = 8 then
    let code := BitVec.ofNat 8 w
    match decodeVruCode 3 0 (some 3) code with
    | some _ => some (.jcmd .vru 3 0 (some 3) code)
    | none => some (.jcmd .controller 0 0 (some 3) code)
  else if nbits = 32 then some (.flcmd (BitVec.ofNat 32 w))
  else if nbits = 24 ∨ nbits = 17 then
    if w = 0x00000 then some (.busop (.flashMmioRead w))
    else if w = 0x10000 then some (.busop (.flashMmioWrite w 0#32 0xFFFFFFFF#32))
    else none
  else none

/-- The instruction the decoder reads from a word of the opcode table. -/
def decodeTableWord (nbits w : Nat) : Option Instr :=
  match tableFetched nbits w with
  | none => none
  | some f =>
    match decode f with
    | .ok i => some i
    | .error _ => none

end Sys2Proof
end

