-- ==== Sys2Proof/Machine/State.lean ====
section
/-! DEFINITION. The state of the block (10_state.md), its reset value, and the reasons a step can stop. -/

namespace Sys2Proof.Machine

/-! ### Byte memories -/

/-- The byte-addressed spaces that hold bytes (20_memory.md R40). -/
inductive Space where
  | pif
  | flash
  | sram
  | dram
deriving DecidableEq, Repr

/-- A byte array of `len` bytes. `cells` lists the bytes that differ from the space's blank byte, addresses strictly
rising and below `len` (log 30). -/
structure Memory where
  len : Nat
  cells : List Host.Cell
deriving DecidableEq, Repr

/-! ### Devices -/

/-- One controller port (10_state.md R15). `changePak` holds the kind the channel had before the rotation
(90_conflicts.md C5). -/
structure Chan where
  pakHandler : Option PakKind
  changePak : Option PakKind
deriving DecidableEq, Repr

/-- The FlashRAM device (10_state.md R18 to R23). -/
structure Flash where
  status : Word
  mode : FlashMode
  erasePage : Half
  pageBuf : List Byte
  siliconId0 : Word
  siliconId1 : Word
  store : Memory
  written : Bool
deriving DecidableEq, Repr

/-- The SRAM device (10_state.md R24). -/
structure Sram where
  store : Memory
  written : Bool
deriving DecidableEq, Repr

/-- The VRU (10_state.md R25 to R29). Fields whose width the spec leaves open are naturals (log 22). -/
structure Vru where
  status : Nat
  voiceState : VoiceState
  loadOffset : Nat
  voiceInit : Nat
  wordBuffer : List Nat
  words : List String
  talking : Bool
deriving DecidableEq, Repr

/-- The event table: the absolute cycle of each pending registration (10_state.md R31). -/
structure Events where
  pakSwitch : Option Nat
  vruTimeout : Option Nat
deriving DecidableEq, Repr

/-- The fault latches (10_state.md R34). -/
structure Latches where
  pif : Option FatalKind
  flash : Option FatalKind
  sram : Option FatalKind
  vru : Option FatalKind
deriving DecidableEq, Repr

/-! ### The outside world -/

/-- The answer of `ui.poll(c)` (10_state.md R33 a). -/
structure Poll where
  keys : Word
  gesture : Bool
deriving DecidableEq, Repr

/-- The answers the UI oracle gives to the next operation (10_state.md R33 a, d; log 11): whether a UI is attached,
each channel's poll, and the word it chooses at the VRU prompt (empty for "none"). -/
structure Ui where
  attached : Bool
  poll : Quad Poll
  choice : String
deriving DecidableEq, Repr

/-- The stores the storage collaborator hands in at the next `DeviceReset` (70_reset_and_hazards.md R225, R229;
log 8). -/
structure Handover where
  flash : Option Memory
  sram : Option Memory
deriving DecidableEq, Repr

/-- What a fatal's diagnostic records (60_exceptions.md R197, column `info`). -/
inductive FatalInfo where
  | frame (c : Channel) (tx rx : Option Nat)
  | value (v : Word)
  | mmio (addr : Nat) (mode : FlashMode)
  | dmaRead (cart len : Nat) (mode : FlashMode)
  | dmaWrite (cart len : Nat) (mode : FlashMode)
  | page (p : Nat)
  | addr (a : Nat)
  | code (word : String)
  | none
deriving DecidableEq, Repr

/-- What the block sends out: the value an MMIO read returns, the fatal outcome (60_exceptions.md R195), the log line
of an unknown JCMD (R211), the UI calls (10_state.md R33) and the result index of `VRU_READ` (45_vru.md R179). None of
it is read back by any operation (R211; log 12). -/
inductive Output where
  | returned (v : Word)
  | fatal (k : FatalKind) (info : FatalInfo)
  | unknownJcmd (code : Byte)
  | rumble (c : Channel) (on : Bool)
  | audioCue
  | vruPrompt (words : List String)
  | vruIndex (n : Nat)
deriving DecidableEq, Repr

/-- What the outside world does next (70_reset_and_hazards.md R233, R241; log 26): presents an operation, or acts
between two operations. -/
inductive Input where
  | op (o : Op)
  | hostPif (i : Nat) (v : Byte)
  | hostDram (i : Nat) (v : Byte)
  | advance (n : Nat)
  | flashPersisted
  | sramPersisted
  | ui (u : Ui)
  | handover (h : Handover)
deriving DecidableEq, Repr

/-! ### The state -/

/-- The whole state. `inbox`, `out`, `draws`, `ui` and `handover` are the model's own fields (INVENTORY.md). -/
structure State where
  params : Params
  pif : Memory
  chan : Quad Chan
  pakState : Quad PakState
  flash : Flash
  sram : Sram
  vru : Vru
  events : Events
  now : Nat
  fault : Latches
  dram : Memory
  ui : Ui
  handover : Handover
  inbox : List Input
  out : List Output
  draws : Nat
deriving DecidableEq, Repr

/-- Why the machine stops with a fault: a premise on the outside world is broken. -/
inductive Fault where
  /-- Raised by `LoadState` whose operand is not well typed, a premise of the operation (R231). Safe. -/
  | illTypedLoad
  /-- Raised by a host write to a PIF RAM byte that does not exist (R14). Safe. -/
  | hostOutsidePif
  /-- Raised by a host write to a main-memory byte that does not exist (R38). Safe. -/
  | hostOutsideDram
deriving DecidableEq, Repr

/-- Why an operation has no step. -/
inductive Refusal where
  /-- Raised by an arm of `exec` whose instruction has no meaning yet. Safe. -/
  | notModelled (mnemonic : String)
  /-- Raised by every operation addressed to a subsystem whose latch is set (60_exceptions.md R196). Safe. -/
  | halted (sub : Subsystem)
  /-- Raised by an event operation whose registration is not pending (R118, R186, vectors V62, V126). Safe. -/
  | eventNotPending (tag : EventTag)
  /-- Raised by `InstallPak` on a channel with a pending rotation (R114). Safe. -/
  | installDuringSwitch (c : Channel)
  /-- Raised by `CONTROLLER_READ` for a gesture on a channel with no handler, under the policy `refuse` (R96). Safe. -/
  | gestureWithoutPak (c : Channel)
  /-- Raised by a `PifProcess` on a channel with no device (R6, D30; log 14). Safe. -/
  | channelAbsent (c : Channel)
  /-- Raised by `CONTROLLER_READ`, `PAK_READ`, `PAK_WRITE` on a `Vru` channel (R175, R176; log 15). Safe. -/
  | vruGenericOpen (c : Channel)
  /-- Raised by a VRU command run on a channel that is no `Vru`; the decoder gives none (R68, R70). Safe. -/
  | notVruChannel (c : Channel)
  /-- Raised by `VRU_WRITE` (R180; log 20). Safe. -/
  | vruWriteOpen
  /-- Raised by `VRU_WRITE_INIT` (R188; log 20). Safe. -/
  | vruWriteInitOpen
deriving DecidableEq, Repr

/-- The outcome of an operation. -/
abbrev Result := Host.Outcome State Fault Refusal

/-! ### Reset -/

/-- The machine right after reset with the default launch parameters (10_state.md R39). The values R39 leaves to the
launch or unspecified are log 3 to 7, 9, 11, 22 and 32. -/
def State.reset : State where
  params := Config.defaultParams
  pif := ⟨64, []⟩
  chan := Quad.all ⟨none, none⟩
  pakState := Quad.all 0
  flash :=
    { status := 0#32
      mode := .readArray
      erasePage := 0#16
      pageBuf := List.replicate Config.pageSize 0x00#8
      siliconId0 := Config.defaultParams.siliconId0
      siliconId1 := Config.defaultParams.siliconId1
      store := ⟨0, []⟩
      written := false }
  sram := ⟨⟨0, []⟩, false⟩
  vru :=
    { status := 0
      voiceState := .start
      loadOffset := 0
      voiceInit := 0
      wordBuffer := List.replicate Config.vruSlots 0
      words := []
      talking := false }
  events := ⟨none, none⟩
  now := 0
  fault := ⟨none, none, none, none⟩
  dram := ⟨0x400000, []⟩
  ui := ⟨false, Quad.all ⟨0#32, false⟩, ""⟩
  handover := ⟨none, none⟩
  inbox := []
  out := []
  draws := 0

end Sys2Proof.Machine
end

