-- ==== Sys2Proof/Machine/Ops.lean ====
section
/-! DEFINITION. The named operations over memories, channels, events, free draws and fault latches that every meaning
goes through. -/

namespace Sys2Proof.Machine

/-! ### Byte memories (20_memory.md) -/

/-- What an unlisted index of a space reads as: `0xFF` in the two stores, whose untouched bytes the lazy format fills
with `0xFF` (20_memory.md R50); `0x00` in PIF RAM and main memory, whose content at reset the spec does not give
(DESIGN CHOICE, unsafe: log 5, log 6). -/
def Space.blank (sp : Space) : Byte :=
  match sp with
  | .flash | .sram => 0xFF#8
  | .pif | .dram => 0x00#8

/-- The canonical form of a cell list: every address at least `lo` and below `len`, strictly rising, no blank value. -/
def cellsOk (blank : Byte) (len : Nat) : Nat → List Host.Cell → Bool
  | _, [] => true
  | lo, (a, v) :: rest => decide (lo ≤ a) && decide (a < len) && decide (v ≠ blank) && cellsOk blank len (a + 1) rest

/-- A memory of space `sp` is in canonical form. -/
def Memory.wf (sp : Space) (m : Memory) : Bool := cellsOk sp.blank m.len 0 m.cells

/-- A memory of `len` blank bytes. -/
def Memory.blankOf (len : Nat) : Memory := ⟨len, []⟩

/-- The value at index `a` of a cell list, the blank byte where unlisted. -/
def cellsGet (blank : Byte) : List Host.Cell → Nat → Byte
  | [], _ => blank
  | (b, w) :: rest, a => if a = b then w else cellsGet blank rest a

/-- Put `v` at index `a`, keeping the canonical form: a blank value removes the entry. -/
def cellsPut (blank : Byte) : List Host.Cell → Nat → Byte → List Host.Cell
  | [], a, v => if v = blank then [] else [(a, v)]
  | (b, w) :: rest, a, v =>
    if a < b then (if v = blank then (b, w) :: rest else (a, v) :: (b, w) :: rest)
    else if a = b then (if v = blank then rest else (a, v) :: rest)
    else (b, w) :: cellsPut blank rest a v

/-- `MemRead(space, i, 1)` with the clamp: an index outside the memory reads `0x00` (R48). -/
def Memory.read (sp : Space) (m : Memory) (i : Nat) : Byte :=
  if i < m.len then cellsGet sp.blank m.cells i else 0x00#8

/-- `MemWrite(space, i, 1, v)` with the clamp: an index outside the memory is dropped (R48). -/
def Memory.write (sp : Space) (m : Memory) (i : Nat) (v : Byte) : Memory :=
  if i < m.len then { m with cells := cellsPut sp.blank m.cells i v } else m

/-- Write these (index, byte) pairs in order. -/
def Memory.writeAll (sp : Space) (m : Memory) (cs : List Host.Cell) : Memory :=
  cs.foldl (fun m c => m.write sp c.1 c.2) m

/-- `MemRead(space, off, n)`: the bytes in increasing index order (R8). -/
def Memory.bytes (sp : Space) (m : Memory) (off n : Nat) : List Byte :=
  (List.range n).map (fun i => m.read sp (off + i))

/-- The (index, byte) pairs that lay `bs` out from `off` on. -/
def cellsFrom : Nat → List Byte → List Host.Cell
  | _, [] => []
  | off, b :: bs => (off, b) :: cellsFrom (off + 1) bs

/-- `MemWrite(space, off, n, bs)`. -/
def Memory.writeBytes (sp : Space) (m : Memory) (off : Nat) (bs : List Byte) : Memory :=
  m.writeAll sp (cellsFrom off bs)

/-- `format(store, SIZE)` of the two stores: extended to `size` bytes; the new bytes are unlisted and so read `0xFF`,
the old prefix is kept (R50). -/
def Memory.format (size : Nat) (m : Memory) : Memory := { m with len := max m.len size }

/-- Set bytes `lo .. lo+n-1` to the space's blank byte, `0xFF` in the FlashRAM store (43_flashram.md R131). -/
def Memory.erase (lo n : Nat) (m : Memory) : Memory :=
  { m with cells := m.cells.filter (fun c => decide (c.1 < lo) || decide (lo + n ≤ c.1)) }

/-! ### Updates of the state -/

namespace State

def setPif (s : State) (m : Memory) : State := { s with pif := m }
def setDram (s : State) (m : Memory) : State := { s with dram := m }
def setFlash (s : State) (f : Flash) : State := { s with flash := f }
def setSram (s : State) (r : Sram) : State := { s with sram := r }
def setVru (s : State) (v : Vru) : State := { s with vru := v }
def setChan (s : State) (c : Channel) (h : Chan) : State := { s with chan := s.chan.set c h }
def setPakState (s : State) (c : Channel) (p : PakState) : State := { s with pakState := s.pakState.set c p }
def setFault (s : State) (l : Latches) : State := { s with fault := l }
def setInbox (s : State) (l : List Input) : State := { s with inbox := l }

/-- Send `o` out. -/
def emit (s : State) (o : Output) : State := { s with out := s.out ++ [o] }

/-- Send the outputs `os` out, in order. -/
def emitAll (s : State) (os : List Output) : State := { s with out := s.out ++ os }

/-- The free values of this draw are used up (log 29). -/
def nextDraw (s : State) : State := { s with draws := s.draws + 1 }

/-- `create_event` / `remove_event` of the `PakSwitch` tag (10_state.md R31). -/
def setPakSwitch (s : State) (e : Option Nat) : State := { s with events := { s.events with pakSwitch := e } }

/-- `create_event` / `remove_event` of the `VruTimeout` tag (10_state.md R31). -/
def setVruTimeout (s : State) (e : Option Nat) : State := { s with events := { s.events with vruTimeout := e } }

/-- PIF RAM byte `i`. -/
def pifByte (s : State) (i : Nat) : Byte := s.pif.read .pif i

/-- Write response bytes into PIF RAM from `off` on. -/
def putPif (s : State) (off : Nat) (bs : List Byte) : State := s.setPif (s.pif.writeBytes .pif off bs)

/-- The device of channel `c`. -/
def device (s : State) (c : Channel) : Device := s.params.device.get c

/-- The handler bound to channel `c`. -/
def handler (s : State) (c : Channel) : Option PakKind := (s.chan.get c).pakHandler

end State

/-! ### Taking a fatal, and the way out of it (60_exceptions.md) -/

/-- The subsystem a kind belongs to (R197). -/
def fatalSubsystem (k : FatalKind) : Subsystem :=
  match k with
  | .pifContract | .invalidRotation => .pif
  | .flashUnknownCommand | .flashMmioShape | .flashDmaShape | .flashRange => .flash
  | .sramMisaligned => .sram
  | .vruUnmappedWord => .vru

/-- The latch of a subsystem. -/
def latchOf (l : Latches) (sub : Subsystem) : Option FatalKind :=
  match sub with
  | .pif => l.pif
  | .flash => l.flash
  | .sram => l.sram
  | .vru => l.vru

/-- The latches with the one of `sub` set to `k`. -/
def setLatch (l : Latches) (sub : Subsystem) (k : FatalKind) : Latches :=
  match sub with
  | .pif => { l with pif := some k }
  | .flash => { l with flash := some k }
  | .sram => { l with sram := some k }
  | .vru => { l with vru := some k }

/-- `raise Fatal(k)` with `info` (R195, R196): no state changes but the latch of the kind's subsystem; the host
receives the outcome. Nothing is saved and nothing is vectored to (R204). -/
def raiseFatal (k : FatalKind) (info : FatalInfo) (s : State) : Result :=
  .next ((s.setFault (setLatch s.fault (fatalSubsystem k) k)).emit (.fatal k info))

/-- "The only way out is `DeviceReset`", which clears all four latches (R196, R205). -/
def clearFatals (s : State) : State := s.setFault ⟨none, none, none, none⟩

/-- An operation addressed to `sub` is refused while the latch of `sub` is set, and otherwise has result `r` (R196). -/
def unlessHalted (sub : Subsystem) (s : State) (r : Result) : Result :=
  match latchOf s.fault sub with
  | some _ => .refused (.halted sub)
  | none => r

end Sys2Proof.Machine
end

