-- ==== Sys2Proof/Machine/Operands.lean ====
section
/-! DEFINITION. Every operand form of the spec: address reductions, byte order, frame footprints, DMA index lists. -/

namespace Sys2Proof.Machine

/-! ### Words in byte memories (20_memory.md R44) -/

/-- `bytes_be32(w)`, most significant byte first (00_scope.md R7). -/
def bytesBe32 (w : Word) : List Byte :=
  [w.extractLsb' 24 8, w.extractLsb' 16 8, w.extractLsb' 8 8, w.extractLsb' 0 8]

/-- `be32(b0, b1, b2, b3)` (00_scope.md R7). -/
def be32 (b0 b1 b2 b3 : Byte) : Word := b0 ++ (b1 ++ (b2 ++ b3))

/-- The word whose bytes lie at `a .. a+3` of a memory. -/
def wordAt (sp : Space) (m : Memory) (a : Nat) : Word :=
  be32 (m.read sp a) (m.read sp (a + 1)) (m.read sp (a + 2)) (m.read sp (a + 3))

/-! ### Address forms -/

/-- `addr & 0x1FFFF`, the 17-bit FlashRAM window (43_flashram.md R126). -/
def off17 (addr : Nat) : Nat := addr &&& 0x1FFFF

/-- `addr & 0x7FFF`, the SRAM MMIO index (44_sram.md R161). -/
def sramIndex (addr : Nat) : Nat := addr &&& 0x7FFF

/-- `addr[1:0] = 0` (44_sram.md R163). -/
def wordAligned (addr : Nat) : Bool := addr &&& 3 == 0

/-- The pak address, `(byte0 << 8) | (byte1 & 0xE0)` (30_encoding.md R64). -/
def pakAddress (byte0 byte1 : Byte) : Half := (byte0.setWidth 16 <<< 8) ||| ((byte1 &&& 0xE0#8).setWidth 16)

/-- The sector base, `(erase_page & 0xFF80) * 128` on naturals (30_encoding.md R65). -/
def sectorBase (erasePage : Half) : Nat := (erasePage.toNat &&& 0xFF80) * Config.pageSize

/-- `(erase_page & 0xFF80) > 0x0380`: the sector lies beyond the store (43_flashram.md R130). -/
def sectorOutOfRange (erasePage : Half) : Bool := decide (0x0380 < (erasePage.toNat &&& 0xFF80))

/-- The byte offset of a page, `page * 128` on naturals (30_encoding.md R65). -/
def pageBase (page : Half) : Nat := page.toNat * Config.pageSize

/-- `page > 0x03FF`: the page lies beyond the store (43_flashram.md R130). -/
def pageOutOfRange (page : Half) : Bool := decide (0x03FF < page.toNat)

/-- The remapped source base of an array read (43_flashram.md R146): the masked 16-bit address, doubled for the chips
of `REMAP_X2_IDS`. -/
def arrayBase (p : Params) (siliconId1 : Word) (cart : Nat) : Nat :=
  if siliconId1 ∈ p.remapX2Ids then (cart &&& 0xFFFF) * 2 else cart &&& 0xFFFF

/-! ### DMA (20_memory.md R46 to R49) -/

/-- The main-memory index of DMA byte `i` (R47). -/
def dramIndex (p : Params) (dram i : Nat) : Nat := (dram + i) ^^^ p.dramIndexXor

/-- The bytes a DMA takes out of main memory, clamped (R47, R48). -/
def dramBytes (s : State) (dram len : Nat) : List Byte :=
  (List.range len).map (fun i => s.dram.read .dram (dramIndex s.params dram i))

/-- The (index, byte) pairs a DMA stores into main memory: byte `bs[i]` at the adjusted index of `i` (R47). -/
def dramCells (p : Params) (dram : Nat) (bs : List Byte) : List Host.Cell :=
  (cellsFrom 0 bs).map (fun c => (dramIndex p dram c.1, c.2))

/-- Deliver `bs` to main memory; bytes beyond it are dropped (R48). -/
def dmaToDram (s : State) (dram : Nat) (bs : List Byte) : State :=
  s.setDram (s.dram.writeAll .dram (dramCells s.params dram bs))

/-! ### JCMD frames (30_encoding.md R61, 20_memory.md R42) -/

/-- The start of the response when the whole footprint lies inside PIF RAM: `txLen` bytes from `tx`, `rxLen` bytes from
a present `rx`. A command that writes no response byte needs no `rx`, and a present `rx` beyond PIF RAM breaks the
contract all the same: both are the model's choice, for a VRU response length of 0 only (log 36). -/
def frameStart (size tx : Nat) (rx : Option Nat) (txLen rxLen : Nat) : Option Nat :=
  if tx + txLen ≤ size then
    match rx with
    | some r => if r + rxLen ≤ size then some r else none
    | none => if rxLen = 0 then some 0 else none
  else none

/-- The code byte's index when `tx` is present and inside PIF RAM (41_channel_dispatcher.md R90 steps 2, 3). -/
def commandIndex (size : Nat) (tx : Option Nat) : Option Nat :=
  match tx with
  | some t => if t < size then some t else none
  | none => none

/-- Why a `PifProcess` on channel `c` has no step: `fault.pif` (R90 step 1), a channel with no device, or the VRU's
own latch on a `Vru` channel (R196; log 14, log 28). -/
def pifGate (c : Channel) (s : State) : Option Refusal :=
  match s.fault.pif, s.device c, s.fault.vru with
  | some _, _, _ => some (.halted .pif)
  | none, .absent, _ => some (.channelAbsent c)
  | none, .vru, some _ => some (.halted .vru)
  | none, _, _ => none

/-- The common steps of a JCMD command (R90 steps 1 and 6): the gate, then the footprint, then the command with the
start of its response. -/
def withFrame (c : Channel) (tx : Nat) (rx : Option Nat) (txLen rxLen : Nat) (s : State) (run : Nat → Result) :
    Result :=
  match pifGate c s with
  | some r => .refused r
  | none =>
    match frameStart s.pif.len tx rx txLen rxLen with
    | none => raiseFatal .pifContract (.frame c (some tx) rx) s
    | some r => run r

/-- `withFrame` for the commands the spec describes on a `Controller` channel only (45_vru.md R175, R176; log 15). -/
def withControllerFrame (c : Channel) (tx : Nat) (rx : Option Nat) (txLen rxLen : Nat) (s : State)
    (run : Nat → Result) : Result :=
  match pifGate c s, s.device c with
  | some r, _ => .refused r
  | none, .vru => .refused (.vruGenericOpen c)
  | none, _ => withFrame c tx rx txLen rxLen s run

/-- `withFrame` for the VRU commands, "decoded only on a channel whose device is Vru" (30_encoding.md R68). -/
def withVruFrame (c : Channel) (tx : Nat) (rx : Option Nat) (txLen rxLen : Nat) (s : State) (run : Nat → Result) :
    Result :=
  match pifGate c s, s.device c with
  | some r, _ => .refused r
  | none, .vru => withFrame c tx rx txLen rxLen s run
  | none, _ => .refused (.notVruChannel c)

/-- The start of the 4-byte window of `WRITE_CONFIG` (45_vru.md R184, R190; log 19). -/
def vruWindowStart (p : Params) (tx : Nat) : Nat :=
  match p.vruWindow with
  | .absolute i => i
  | .afterTx k => tx + k

end Sys2Proof.Machine
end

