-- ==== Sys2Proof/Machine/Flags.lean ====
section
/-! DEFINITION. The flags of the block (10_state.md R35): the four FlashRAM status bits and `vru.talking` with the
transitions of `vru.voice_state` that follow it. -/

namespace Sys2Proof.Machine

/-- A one-bit status mask at its position (10_state.md R18). -/
def statusMask (bit : Fin 32) : Word := 1#32 <<< bit.val

/-- `status | mask`. -/
def setStatus (bit : Fin 32) (status : Word) : Word := status ||| statusMask bit

/-- `status & ~mask`. -/
def clearStatus (bit : Fin 32) (status : Word) : Word := status &&& ~~~statusMask bit

/-- The status after an erase (43_flashram.md R131): busy set, then cleared, then success set. -/
def eraseStatus (p : Params) (status : Word) : Word :=
  setStatus p.eraseSuccessBit (clearStatus p.eraseBusyBit (setStatus p.eraseBusyBit status))

/-- The status after a program (43_flashram.md R132): busy set, then cleared, then success set. -/
def programStatus (p : Params) (status : Word) : Word :=
  setStatus p.programSuccessBit (clearStatus p.programBusyBit (setStatus p.programBusyBit status))

/-- `talking` becomes true: `Start` goes to `Busy` on the edge only (45_vru.md R183). -/
def talkOn (v : Vru) : Vru :=
  { v with
    talking := true
    voiceState := if v.talking = false ∧ v.voiceState = .start then .busy else v.voiceState }

/-- `talking` becomes false: `Busy` goes to `Ready` on the edge only (45_vru.md R185). -/
def talkOff (v : Vru) : Vru :=
  { v with
    talking := false
    voiceState := if v.talking = true ∧ v.voiceState = .busy then .ready else v.voiceState }

end Sys2Proof.Machine
end

