-- ==== Sys2Proof/Machine/FlashCommands.lean ====
section
/-! DEFINITION. The eight FlashRAM commands (43_flashram.md R128 to R136). -/

namespace Sys2Proof.Machine

/-- The state with `flash.mode` at `m`. -/
def setMode (m : FlashMode) (s : State) : State := s.setFlash { s.flash with mode := m }

/-- `FL_CHIP_ERASE_MODE` (R128). -/
def execFlChipEraseMode (s : State) : Result := unlessHalted .flash s <| .next (setMode .chipErase s)

/-- `FL_SECTOR_ERASE_MODE` (R129): the argument is stored whole. -/
def execFlSectorEraseMode (arg16 : Half) (s : State) : Result :=
  unlessHalted .flash s <| .next (s.setFlash { s.flash with mode := .sectorErase, erasePage := arg16 })

/-- The store after `0x78` in this mode (R131): formatted, then a sector, the chip or nothing erased to `0xFF`. -/
def erasedStore (f : Flash) : Memory :=
  let m := f.store.format Config.flashSize
  match f.mode with
  | .sectorErase => m.erase (sectorBase f.erasePage) Config.sectorSize
  | .chipErase => m.erase 0 Config.flashSize
  | .readArray | .readSiliconId | .status | .pageProgram => m

/-- `FL_ERASE_EXECUTE` (R131): `F_FLASH_RANGE` for a sector beyond the store (R130); else erase, dirty, status, mode. -/
def execFlEraseExecute (s : State) : Result :=
  unlessHalted .flash s <|
    if s.flash.mode = .sectorErase ∧ sectorOutOfRange s.flash.erasePage = true then
      raiseFatal .flashRange (.page s.flash.erasePage.toNat) s
    else
      .next (s.setFlash { s.flash with
        store := erasedStore s.flash
        written := true
        status := eraseStatus s.params s.flash.status
        mode := .status })

/-- `FL_PROGRAM_EXECUTE` (R132): `F_FLASH_RANGE` for a page beyond the store (R130); else the page buffer is copied
into the formatted store, in any mode. -/
def execFlProgramExecute (arg16 : Half) (s : State) : Result :=
  unlessHalted .flash s <|
    if pageOutOfRange arg16 = true then raiseFatal .flashRange (.page arg16.toNat) s
    else
      .next (s.setFlash { s.flash with
        store := (s.flash.store.format Config.flashSize).writeBytes .flash (pageBase arg16) s.flash.pageBuf
        written := true
        status := programStatus s.params s.flash.status
        mode := .status })

/-- `FL_PAGE_PROGRAM_MODE` (R133). -/
def execFlPageProgramMode (s : State) : Result := unlessHalted .flash s <| .next (setMode .pageProgram s)

/-- `FL_STATUS_MODE` (R134): clears no status bit. -/
def execFlStatusMode (s : State) : Result := unlessHalted .flash s <| .next (setMode .status s)

/-- `FL_READ_SILICON_ID_MODE` (R135): also sets the program-busy bit and leaves it set. -/
def execFlReadSiliconIdMode (s : State) : Result :=
  unlessHalted .flash s <| .next (s.setFlash { s.flash with
    mode := .readSiliconId
    status := setStatus s.params.programBusyBit s.flash.status })

/-- `FL_READ_ARRAY_MODE` (R136). -/
def execFlReadArrayMode (s : State) : Result := unlessHalted .flash s <| .next (setMode .readArray s)

end Sys2Proof.Machine
end

