-- ==== Sys2Proof/Machine/FlashBus.lean ====
section
/-! DEFINITION. The four FlashRAM bus operations (43_flashram.md R127, R137 to R147). -/

namespace Sys2Proof.Machine

/-- A write that carries a FlashRAM command: the reduced address is `0x10000` and all 32 bits are written (R127). -/
def carriesCommand (addr : Nat) (mask : Word) : Bool := off17 addr == 0x10000 && mask == 0xFFFFFFFF#32

/-- Dispatch on the opcode of a command word (R127, 30_encoding.md R69); any other opcode is fatal (R137). -/
def runFlashCommand (value : Word) (s : State) : Result :=
  match (flOpcode value).toNat with
  | 0x3C => execFlChipEraseMode s
  | 0x4B => execFlSectorEraseMode (flArg16 value) s
  | 0x78 => execFlEraseExecute s
  | 0xA5 => execFlProgramExecute (flArg16 value) s
  | 0xB4 => execFlPageProgramMode s
  | 0xD2 => execFlStatusMode s
  | 0xE1 => execFlReadSiliconIdMode s
  | 0xF0 => execFlReadArrayMode s
  | _ => raiseFatal .flashUnknownCommand (.value value) s

/-- `FlashMmioWrite` (R127, R139): offset, then width, then opcode, then range (60_exceptions.md R203). -/
def execFlashMmioWrite (addr : Nat) (value mask : Word) (s : State) : Result :=
  unlessHalted .flash s <|
    if carriesCommand addr mask = true then runFlashCommand value s
    else raiseFatal .flashMmioShape (.mmio addr s.flash.mode) s

/-- The value an MMIO read returns at offset 0, if the mode allows the read (R140, R141). -/
def mmioValue (f : Flash) : Option Word :=
  match f.mode with
  | .status => some f.status
  | .readArray => some 0#32
  | .readSiliconId | .sectorErase | .chipErase | .pageProgram => none

/-- `FlashMmioRead` (R140, R141). -/
def execFlashMmioRead (addr : Nat) (s : State) : Result :=
  unlessHalted .flash s <|
    if off17 addr = 0 then
      match mmioValue s.flash with
      | some v => .next (s.emit (.returned v))
      | none => raiseFatal .flashMmioShape (.mmio addr s.flash.mode) s
    else raiseFatal .flashMmioShape (.mmio addr s.flash.mode) s

/-- `FlashDmaRead` (R142, R143): exactly 128 bytes of main memory into the page buffer, in mode `PageProgram`; the
cartridge address is not examined. -/
def execFlashDmaRead (cart dram len : Nat) (s : State) : Result :=
  unlessHalted .flash s <|
    if s.flash.mode = .pageProgram ∧ len = Config.pageSize then
      .next (s.setFlash { s.flash with pageBuf := dramBytes s dram len })
    else raiseFatal .flashDmaShape (.dmaRead cart len s.flash.mode) s

/-- The Silicon-ID readout (R145). -/
def siliconReadout (dram : Nat) (s : State) : State :=
  dmaToDram s dram (bytesBe32 s.flash.siliconId0 ++ bytesBe32 s.flash.siliconId1)

/-- The array read (R146): the store is formatted (R147), the source address remapped, bytes beyond the store read
`0x00` (R48). -/
def arrayRead (cart dram len : Nat) (s : State) : State :=
  let m := s.flash.store.format Config.flashSize
  dmaToDram (s.setFlash { s.flash with store := m }) dram
    (m.bytes .flash (arrayBase s.params s.flash.siliconId1 cart) len)

/-- `FlashDmaWrite` (R144): one of two shapes, any other is fatal. -/
def execFlashDmaWrite (cart dram len : Nat) (s : State) : Result :=
  unlessHalted .flash s <|
    if s.flash.mode = .readSiliconId ∧ off17 cart = 0 ∧ len = 8 then .next (siliconReadout dram s)
    else if s.flash.mode = .readArray ∧ len < 0x10000 then .next (arrayRead cart dram len s)
    else raiseFatal .flashDmaShape (.dmaWrite cart len s.flash.mode) s

end Sys2Proof.Machine
end

