-- ==== Sys2Proof/Machine/Crc.lean ====
section
/-! DEFINITION. The CRC-8 generator (40_crc8.md). -/

namespace Sys2Proof.Machine

/-- One bit of a round (R80): the tap is tested before the shift, the input bit enters at bit 0. -/
def crcBit (r : Byte) (input : Bool) : Byte :=
  ((r <<< 1) ||| (if input then 0x01#8 else 0x00#8)) ^^^ (if r &&& 0x80#8 ≠ 0#8 then 0x85#8 else 0x00#8)

/-- One byte-round, most significant bit first (R80). -/
def crcRound (r b : Byte) : Byte :=
  [7, 6, 5, 4, 3, 2, 1, 0].foldl (fun r k => crcBit r (b.getLsbD k)) r

/-- The rounds of a byte sequence and the flush round of eight zero bits, from register `0x00` (R80, R81). -/
def crcBytes (bs : List Byte) : Byte := crcRound (bs.foldl crcRound 0x00#8) 0x00#8

/-- `crc8(buffer, offset, size)` of a memory (R80). -/
def crc8 (sp : Space) (m : Memory) (off size : Nat) : Byte := crcBytes (m.bytes sp off size)

/-- The table-free byte form without a flush round (R83): the byte is added first, then eight zero bits enter. -/
def crcRoundDirect (r b : Byte) : Byte :=
  (List.range 8).foldl (fun r _ => (r <<< 1) ^^^ (if r &&& 0x80#8 ≠ 0#8 then 0x85#8 else 0x00#8)) (r ^^^ b)

end Sys2Proof.Machine
end

