-- ==== Sys2Proof/Machine/Jcmd.lean ====
section
/-! DEFINITION. The five generic JCMD commands and the unknown one (41_channel_dispatcher.md). -/

namespace Sys2Proof.Machine

/-- The identifier and presence bytes of a controller channel (R92). -/
def controllerIdent (c : Channel) (s : State) : List Byte :=
  [s.params.flavor0, s.params.flavor1,
    match s.handler c with
    | some _ => s.params.pakPresent
    | none => s.params.pakAbsent]

/-- The identifier and status bytes a VRU answers with: free values (45_vru.md R176, log 15). -/
def vruIdent (s : State) : List Byte := (List.range 3).map (Config.vruIdentByte s.draws)

/-- `STATUS` (R92); on a `Vru` channel the three bytes are free (R176). -/
def execStatus (c : Channel) (tx : Nat) (rx : Option Nat) (s : State) : Result :=
  withFrame c tx rx 1 3 s fun r =>
    if s.device c = .vru then .next (s.putPif r (vruIdent s)).nextDraw
    else .next (s.putPif r (controllerIdent c s))

/-- The `voice_state` a VRU reset enters (45_vru.md R177). -/
def resetVoice (region : Byte) : VoiceState :=
  if region = 0x4A#8 ∨ region = 0x00#8 then .ready else .start

/-- The VRU fields after a VRU reset (45_vru.md R177): `voice_state` by region, `talking` false, `words` empty, the
fields the spec leaves open free (log 21). -/
def vruAfterReset (s : State) : Vru where
  status := Config.vruResetStatus s.draws
  voiceState := resetVoice s.params.romRegion
  loadOffset := Config.vruResetLoadOffset s.draws
  voiceInit := Config.vruResetVoiceInit s.draws
  wordBuffer := (List.range Config.vruSlots).map (Config.vruResetSlot s.draws)
  words := []
  talking := false

/-- VRU reset (45_vru.md R177): the fields, and the timeout is cancelled. -/
def vruReset (s : State) : State := (s.setVru (vruAfterReset s)).setVruTimeout none

/-- `RESET` (R93): a controller channel has no channel-local device state to reinitialise; a VRU is reset (R177). The
answer is that of `STATUS`. -/
def execReset (c : Channel) (tx : Nat) (rx : Option Nat) (s : State) : Result :=
  withFrame c tx rx 1 3 s fun r =>
    if s.device c = .vru then .next ((vruReset s).putPif r (vruIdent s)).nextDraw
    else .next (s.putPif r (controllerIdent c s))

/-- The start of a pak switch (R95): the event is stamped, the current handler is captured and cleared. -/
def startSwitch (c : Channel) (s : State) : State :=
  (s.setPakSwitch (some (s.now + s.params.clockRate))).setChan c ⟨none, s.handler c⟩

/-- A gesture on a channel with no handler (R96; log 13): `s` is the state before the command, `t` the one with the
input bytes written. R197 has no kind for the fatal candidate; the `pif` subsystem's contract kind stands for it. -/
def gestureWithoutPak (c : Channel) (s t : State) (info : FatalInfo) : Result :=
  match s.params.gestureWithoutPak with
  | .refuse => .refused (.gestureWithoutPak c)
  | .ignore => .next t
  | .schedule => .next (startSwitch c t)
  | .fatal => raiseFatal .pifContract info s

/-- `CONTROLLER_READ` (R94, R95). -/
def execControllerRead (c : Channel) (tx : Nat) (rx : Option Nat) (s : State) : Result :=
  withControllerFrame c tx rx 1 4 s fun r =>
    let p := s.ui.poll.get c
    let t := s.putPif r (bytesBe32 p.keys)
    if p.gesture = true ∧ s.events.pakSwitch = none then
      match s.handler c with
      | some _ => .next (startSwitch c t)
      | none => gestureWithoutPak c s t (.frame c (some tx) rx)
    else .next t

/-- The arguments of the handler's call for the frame at `tx` (R97, R98). -/
def pakCall (k : PakKind) (c : Channel) (tx dataOffset : Nat) (s : State) : PakCall where
  kind := k
  channel := c
  address := pakAddress (s.pifByte (tx + 1)) (s.pifByte (tx + 2))
  dataOffset := dataOffset
  size := Config.pakChunk

/-- `PakModel.read`: exactly 32 bytes into PIF RAM at `data_offset`, and the channel's pak state (R111, R210). -/
def pakModelRead (call : PakCall) (s : State) : State :=
  let p := s.pakState.get call.channel
  (s.putPif call.dataOffset ((List.range call.size).map (Config.pakReadByte call p))).setPakState call.channel
    (Config.pakReadState call p)

/-- `PakModel.write`: reads 32 PIF RAM bytes, writes none, changes the channel's pak state, may call
`ui.rumble` (R111, R210). -/
def pakModelWrite (call : PakCall) (s : State) : State :=
  let data := s.pif.bytes .pif call.dataOffset call.size
  let p := s.pakState.get call.channel
  (s.setPakState call.channel (Config.pakWriteState call data p)).emitAll
    ((Config.pakWriteRumble call data p).map (.rumble call.channel))

/-- `PAK_READ` (R97): the handler fills the chunk and the check byte is its CRC; with no handler the chunk is left as
it is and the check byte is the complement (R99). -/
def execPakRead (c : Channel) (tx : Nat) (rx : Option Nat) (s : State) : Result :=
  withControllerFrame c tx rx 3 33 s fun r =>
    match s.handler c with
    | some k =>
      let t := pakModelRead (pakCall k c tx r s) s
      .next (t.putPif (r + 32) [crc8 .pif t.pif r 32])
    | none => .next (s.putPif (r + 32) [~~~crc8 .pif s.pif r 32])

/-- `PAK_WRITE` (R98): the check byte is the CRC of the 32 data bytes, complemented with no handler (R99). -/
def execPakWrite (c : Channel) (tx : Nat) (rx : Option Nat) (s : State) : Result :=
  withControllerFrame c tx rx 35 1 s fun r =>
    match s.handler c with
    | some k => .next ((pakModelWrite (pakCall k c tx (tx + 3) s) s).putPif r [crc8 .pif s.pif (tx + 3) 32])
    | none => .next (s.putPif r [~~~crc8 .pif s.pif (tx + 3) 32])

/-- An unknown code: "reported, not fatal (logged)" (R100, R201; on a `Vru` channel log 16). -/
def unknownJcmd (code : Byte) (s : State) : Result := .next (s.emit (.unknownJcmd code))

end Sys2Proof.Machine
end

