-- ==== Sys2Proof/Machine/Pak.lean ====
section
/-! DEFINITION. Pak installation and the completion of a pak switch (42_pak_handler_and_switch.md). -/

namespace Sys2Proof.Machine

/-- The fixed rotation (R113). -/
def rotate (k : PakKind) : PakKind :=
  match k with
  | .memPak => .rumblePak
  | .rumblePak => .transferPak
  | .transferPak => .memPak

/-- Completion on one channel (R118): rumble stopped, the next kind bound, one cue, `change_pak` cleared. A channel
with no pending rotation is untouched. The arm that raises `F_INVALID_ROTATION` is omitted: `changePak` is typed
(R119; log 25). -/
def completeSwitch (s : State) (c : Channel) : State :=
  match (s.chan.get c).changePak with
  | none => s
  | some k =>
    ((s.setPakState c (Config.pakStopRumble c (s.pakState.get c))).setChan c ⟨some (rotate k), none⟩).emitAll
      [.rumble c false, .audioCue]

/-- `PakSwitchEvent` (R118): enabled while pending; the registration is consumed, then the channels complete in index
order. -/
def execPakSwitchEvent (s : State) : Result :=
  unlessHalted .pif s <|
    match s.events.pakSwitch with
    | none => .refused (.eventNotPending .pakSwitch)
    | some _ => .next ([0, 1, 2, 3].foldl completeSwitch (s.setPakSwitch none))

/-- `InstallPak` (R114): refused during the channel's switch window. -/
def execInstallPak (c : Channel) (kind : PakKind) (s : State) : Result :=
  unlessHalted .pif s <|
    match (s.chan.get c).changePak with
    | some _ => .refused (.installDuringSwitch c)
    | none => .next (s.setChan c ⟨some kind, none⟩)

end Sys2Proof.Machine
end

