-- ==== Sys2Proof/Machine/VruCommands.lean ====
section
/-! DEFINITION. The VRU commands and the VRU timeout (45_vru.md). Response bytes and the fields the spec leaves open
are free values (log 17 to 19). -/

namespace Sys2Proof.Machine

/-- "Japan/demo ROM" (R177). -/
def isJapanOrDemo (p : Params) : Bool := p.romRegion == 0x4A#8 || p.romRegion == 0x00#8

/-- A UI answers the prompt: one is attached and netplay does not force "no UI attached" (R179, R187). -/
def uiAnswers (s : State) : Bool := s.ui.attached && !s.params.netplay

/-- The result index of `VRU_READ` (R179): the place of the chosen word in the list, `0x7FFF` for the empty string or
no UI; free for a word that is not in the list (log 34). -/
def vruAnswer (s : State) : Nat :=
  if uiAnswers s = true ∧ s.ui.choice ≠ "" then
    match s.vru.words.findIdx? (· == s.ui.choice) with
    | some n => n
    | none => Config.vruUnlistedIndex s.draws
  else Config.noMatch

/-- The UI calls and the result of `VRU_READ` (R179): the prompt goes out only where a UI answers it. -/
def vruReadOutputs (s : State) : List Output :=
  (if uiAnswers s = true then [.vruPrompt s.vru.words] else []) ++ [.vruIndex (vruAnswer s)]

/-- `VRU_READ` (R179): the result index goes out; the response bytes, `words` and `status`, which R179 leaves open, are
free; `voice_state` keeps its value, as no row of R178's table applies (log 17). The transmit part checked is the code
byte alone, the model's choice (R190; log 36). -/
def execVruRead (c : Channel) (tx : Nat) (rx : Option Nat) (s : State) : Result :=
  withVruFrame c tx rx 1 s.params.vruReadLen s fun r =>
    let v := { s.vru with
      words := Config.vruReadWords s.draws
      status := Config.vruReadStatus s.draws }
    .next (((s.setVru v).putPif r
      ((List.range s.params.vruReadLen).map (Config.vruReadByte s.draws (vruAnswer s)))).emitAll
        (vruReadOutputs s)).nextDraw

/-- `VRU_WRITE` (R180): "Settled: the code and the name only ... A model refuses it." -/
def execVruWrite (c : Channel) (_tx : Nat) (_rx : Option Nat) (s : State) : Result :=
  match pifGate c s, s.device c with
  | some r, _ => .refused r
  | none, .vru => .refused .vruWriteOpen
  | none, _ => .refused (.notVruChannel c)

/-- The word `READ_STATUS` decodes from the buffer, by region (R181); `none` for an unmapped code. -/
def decodedWord (s : State) : Option String :=
  if isJapanOrDemo s.params = true then some (Config.vruText s.vru.wordBuffer)
  else s.params.wordMappings.lookup (Config.vruHexCode s.vru.wordBuffer)

/-- The end of `READ_STATUS`: its status bytes are free (R181). -/
def vruStatusAnswer (r : Nat) (s : State) : Result :=
  .next (s.putPif r ((List.range s.params.vruReadStatusLen).map (Config.vruReadStatusByte s.draws))).nextDraw

/-- `VRU_READ_STATUS` (R181): when words are pending, one is decoded and appended to `words`; an unmapped code is fatal
(R189). The transmit part checked is the code byte alone, the model's choice (R190; log 36). -/
def execVruReadStatus (c : Channel) (tx : Nat) (rx : Option Nat) (s : State) : Result :=
  withVruFrame c tx rx 1 s.params.vruReadStatusLen s fun r =>
    if Config.vruWordsPending s.draws = true then
      match decodedWord s with
      | some w => vruStatusAnswer r (s.setVru { s.vru with words := s.vru.words ++ [w] })
      | none => raiseFatal .vruUnmappedWord (.code (Config.vruHexCode s.vru.wordBuffer)) s
    else vruStatusAnswer r s

/-- The state changes of `WRITE_CONFIG` (R184) for the CRC `k` of the window: `0x4E` talking on and the timeout armed,
`0xEF` talking off and the timeout cancelled; any other frame clears the queued words if it is the raw reset
sub-command, whose encoding is open. -/
def vruConfigure (k : Byte) (frame : List Byte) (s : State) : State :=
  if k = 0x4E#8 then (s.setVru (talkOn s.vru)).setVruTimeout (some (s.now + 2 * s.params.clockRate))
  else if k = 0xEF#8 then (s.setVru (talkOff s.vru)).setVruTimeout none
  else s.setVru { s.vru with words := if Config.vruRawReset frame = true then [] else s.vru.words }

/-- `VRU_WRITE_CONFIG` (R182, R184); a window outside PIF RAM breaks the contract (20_memory.md R42). The transmit
part checked beside it is the code byte alone, the model's choice (R190; log 36). -/
def execVruWriteConfig (c : Channel) (tx : Nat) (rx : Option Nat) (s : State) : Result :=
  withVruFrame c tx rx 1 s.params.vruWriteConfigLen s fun r =>
    let w := vruWindowStart s.params tx
    if w + 4 ≤ s.pif.len then
      .next ((vruConfigure (crc8 .pif s.pif w 4) (s.pif.bytes .pif tx (s.pif.len - tx)) s).putPif r
        ((List.range s.params.vruWriteConfigLen).map (Config.vruWriteConfigByte s.draws))).nextDraw
    else raiseFatal .pifContract (.frame c (some tx) rx) s

/-- `VRU_WRITE_INIT` (R188): "Settled: the code and the name only ... A model refuses it." -/
def execVruWriteInit (c : Channel) (_tx : Nat) (_rx : Option Nat) (s : State) : Result :=
  match pifGate c s, s.device c with
  | some r, _ => .refused r
  | none, .vru => .refused .vruWriteInitOpen
  | none, _ => .refused (.notVruChannel c)

/-- `VruTimeoutEvent` (R186): enabled while pending; the registration is consumed and `talking` cleared. -/
def execVruTimeoutEvent (s : State) : Result :=
  unlessHalted .vru s <|
    match s.events.vruTimeout with
    | none => .refused (.eventNotPending .vruTimeout)
    | some _ => .next ((s.setVru (talkOff s.vru)).setVruTimeout none)

end Sys2Proof.Machine
end

