-- ==== Sys2Proof/Machine/Platform.lean ====
section
/-! DEFINITION. `DeviceReset` and `LoadState` (70_reset_and_hazards.md). -/

namespace Sys2Proof.Machine

/-- PIF RAM after `DeviceReset`: any bytes (10_state.md R14, R39; log 5). -/
def pifAfterReset (s : State) : Memory :=
  (Memory.blankOf s.pif.len).writeBytes .pif 0 ((List.range s.pif.len).map (Config.resetPifByte s.draws))

/-- A store at `DeviceReset`: the bytes and length handed in, or else as they are (R39, R225; log 8). -/
def storeAfterReset (handed : Option Memory) (store : Memory) : Memory :=
  match handed with
  | some m => m
  | none => store

/-- The FlashRAM device as constructed (10_state.md R39), with this store. -/
def Flash.constructed (p : Params) (store : Memory) : Flash where
  status := 0#32
  mode := .readArray
  erasePage := 0#16
  pageBuf := List.replicate Config.pageSize 0x00#8
  siliconId0 := p.siliconId0
  siliconId1 := p.siliconId1
  store := store
  written := false

/-- `pak_state` after `DeviceReset`: any value on each channel (10_state.md R17, R39; log 9). -/
def pakStateAfterReset (s : State) : Quad PakState :=
  let p := Config.resetPakState s.draws
  ⟨p 0, p 1, p 2, p 3⟩

/-- No handler, no pending rotation (10_state.md R15). -/
def Chan.reset : Chan := ⟨none, none⟩

/-- `DeviceReset` (R225): the table of 10_state.md R39; main memory, `now`, the parameters and the outside world's
queues are not the block's to reset. -/
def execDeviceReset (s : State) : Result :=
  .next (clearFatals { s with
    pif := pifAfterReset s
    chan := Quad.all Chan.reset
    pakState := pakStateAfterReset s
    flash := Flash.constructed s.params (storeAfterReset s.handover.flash s.flash.store)
    sram := ⟨storeAfterReset s.handover.sram s.sram.store, false⟩
    vru := vruAfterReset s
    events := ⟨none, none⟩
    handover := ⟨none, none⟩
    draws := s.draws + 1 })

/-- The channels with their kind tags replaced; `change_pak` is not a persisted field (R231). -/
def loadKinds (chan : Quad Chan) (kinds : Quad (Option PakKind)) : Quad Chan :=
  ⟨⟨kinds.c0, chan.c0.changePak⟩, ⟨kinds.c1, chan.c1.changePak⟩, ⟨kinds.c2, chan.c2.changePak⟩,
    ⟨kinds.c3, chan.c3.changePak⟩⟩

/-- The state with the persisted fields overwritten (R231). -/
def loadSaved (f : Saved) (s : State) : State :=
  { s with
    flash := { s.flash with
      status := f.flashStatus
      mode := f.flashMode
      erasePage := f.flashErasePage
      pageBuf := f.flashPageBuf
      siliconId0 := f.flashSiliconId0
      siliconId1 := f.flashSiliconId1 }
    vru :=
      { status := f.vruStatus
        voiceState := f.vruVoiceState
        loadOffset := f.vruLoadOffset
        voiceInit := f.vruVoiceInit
        wordBuffer := f.vruWordBuffer
        words := f.vruWords
        talking := f.vruTalking }
    chan := loadKinds s.chan f.kinds }

/-- `LoadState` (R231): addressed to the `pif`, `flash` and `vru` subsystems, whose fields it writes (log 28); the
typing of its operand is a premise, the values are not checked. -/
def execLoadState (f : Saved) (s : State) : Result :=
  unlessHalted .pif s <| unlessHalted .flash s <| unlessHalted .vru s <|
    if f.wellFormed = true then .next (loadSaved f s) else .fault .illTypedLoad

end Sys2Proof.Machine
end

