-- ==== Sys2Proof/Machine/SramBus.lean ====
section
/-! DEFINITION. The four SRAM operations (44_sram.md). -/

namespace Sys2Proof.Machine

/-- The state with the SRAM store formatted, the first step of every SRAM access (R160); `written` is not set
(20_memory.md R50). -/
def sramFormat (s : State) : State := s.setSram { s.sram with store := s.sram.store.format Config.sramSize }

/-- An SRAM MMIO access: latch, then alignment, before the format (R160, R163). -/
def withAlignedSram (addr : Nat) (s : State) (r : Result) : Result :=
  unlessHalted .sram s <|
    if wordAligned addr = true then r else raiseFatal .sramMisaligned (.addr addr) s

/-- `SramMmioRead` (R161). -/
def execSramMmioRead (addr : Nat) (s : State) : Result :=
  withAlignedSram addr s <|
    let t := sramFormat s
    .next (t.emit (.returned (wordAt .sram t.sram.store (sramIndex addr))))

/-- The masked merge of a write (R162). -/
def maskedWord (old value mask : Word) : Word := (old &&& ~~~mask) ||| (value &&& mask)

/-- `SramMmioWrite` (R162). -/
def execSramMmioWrite (addr : Nat) (value mask : Word) (s : State) : Result :=
  withAlignedSram addr s <|
    let m := s.sram.store.format Config.sramSize
    let a := sramIndex addr
    .next (s.setSram
      { store := m.writeBytes .sram a (bytesBe32 (maskedWord (wordAt .sram m a) value mask))
        written := true })

/-- `SramDmaRead` (R164): main memory to store, clamped at both ends; `written` is set in every case. -/
def execSramDmaRead (cart dram len : Nat) (s : State) : Result :=
  unlessHalted .sram s <|
    .next (s.setSram
      { store := (s.sram.store.format Config.sramSize).writeBytes .sram cart (dramBytes s dram len)
        written := true })

/-- `SramDmaWrite` (R165): store to main memory, clamped at both ends; `written` is not set. -/
def execSramDmaWrite (cart dram len : Nat) (s : State) : Result :=
  unlessHalted .sram s <|
    let t := sramFormat s
    .next (dmaToDram t dram (t.sram.store.bytes .sram cart len))

end Sys2Proof.Machine
end

