-- ==== Sys2Proof/Machine/Dispatch.lean ====
section
/-! DEFINITION. The meaning of each instruction, by name. -/

namespace Sys2Proof.Machine

def exec (i : Instr) (s : State) : Host.Outcome State Fault Refusal :=
  match i with
  | .status c tx rx => Sys2Proof.Machine.execStatus c tx rx s
  | .controllerRead c tx rx => Sys2Proof.Machine.execControllerRead c tx rx s
  | .pakRead c tx rx => Sys2Proof.Machine.execPakRead c tx rx s
  | .pakWrite c tx rx => Sys2Proof.Machine.execPakWrite c tx rx s
  | .reset c tx rx => Sys2Proof.Machine.execReset c tx rx s
  | .vruRead c tx rx => Sys2Proof.Machine.execVruRead c tx rx s
  | .vruWrite c tx rx => Sys2Proof.Machine.execVruWrite c tx rx s
  | .vruReadStatus c tx rx => Sys2Proof.Machine.execVruReadStatus c tx rx s
  | .vruWriteConfig c tx rx => Sys2Proof.Machine.execVruWriteConfig c tx rx s
  | .vruWriteInit c tx rx => Sys2Proof.Machine.execVruWriteInit c tx rx s
  | .flChipEraseMode => Sys2Proof.Machine.execFlChipEraseMode s
  | .flSectorEraseMode a => Sys2Proof.Machine.execFlSectorEraseMode a s
  | .flEraseExecute => Sys2Proof.Machine.execFlEraseExecute s
  | .flProgramExecute a => Sys2Proof.Machine.execFlProgramExecute a s
  | .flPageProgramMode => Sys2Proof.Machine.execFlPageProgramMode s
  | .flStatusMode => Sys2Proof.Machine.execFlStatusMode s
  | .flReadSiliconIdMode => Sys2Proof.Machine.execFlReadSiliconIdMode s
  | .flReadArrayMode => Sys2Proof.Machine.execFlReadArrayMode s
  | .flashMmioRead a => Sys2Proof.Machine.execFlashMmioRead a s
  | .flashMmioWrite a v m => Sys2Proof.Machine.execFlashMmioWrite a v m s
  | .flashDmaRead c d n => Sys2Proof.Machine.execFlashDmaRead c d n s
  | .flashDmaWrite c d n => Sys2Proof.Machine.execFlashDmaWrite c d n s
  | .sramMmioRead a => Sys2Proof.Machine.execSramMmioRead a s
  | .sramMmioWrite a v m => Sys2Proof.Machine.execSramMmioWrite a v m s
  | .sramDmaRead c d n => Sys2Proof.Machine.execSramDmaRead c d n s
  | .sramDmaWrite c d n => Sys2Proof.Machine.execSramDmaWrite c d n s
  | .pakSwitchEvent => Sys2Proof.Machine.execPakSwitchEvent s
  | .vruTimeoutEvent => Sys2Proof.Machine.execVruTimeoutEvent s
  | .deviceReset => Sys2Proof.Machine.execDeviceReset s
  | .installPak c k => Sys2Proof.Machine.execInstallPak c k s
  | .loadState f => Sys2Proof.Machine.execLoadState f s

end Sys2Proof.Machine
end

