-- ==== Sys2Proof/Machine/Present.lean ====
section
/-! DEFINITION. How an operation is presented: what is fetched, how it is decoded and run, and what the outside world
does between two operations (10_state.md R12, 41_channel_dispatcher.md R90, 70_reset_and_hazards.md R233). -/

namespace Sys2Proof.Machine

/-- What a bus operation gives the decoder: a FlashRAM command word where the write carries one (30_encoding.md R62),
else the operation itself. -/
def fetchBus (b : BusOp) : Fetched :=
  match b with
  | .flashMmioWrite a v m => if carriesCommand a m = true then .flcmd v else .busop b
  | .flashMmioRead _ | .flashDmaRead _ _ _ | .flashDmaWrite _ _ _
  | .sramMmioRead _ | .sramMmioWrite _ _ _ | .sramDmaRead _ _ _ | .sramDmaWrite _ _ _
  | .pakSwitchEvent | .vruTimeoutEvent | .deviceReset | .installPak _ _ | .loadState _ => .busop b

/-- What the frame of a `PifProcess` gives the decoder: the byte that lies at `tx` now (20_memory.md R58). -/
def fetchFrame (c : Channel) (tx : Nat) (rx : Option Nat) (s : State) : Fetched :=
  .jcmd (s.device c) c tx rx (s.pifByte tx)

/-- `PifProcess` (R90): the gate, the two `tx_buf` tests, the command byte, then the decoded command; an unknown code
is logged (R100). -/
def presentFrame (c : Channel) (tx rx : Option Nat) (s : State) : Result :=
  match pifGate c s with
  | some r => .refused r
  | none =>
    match commandIndex s.pif.len tx with
    | none => raiseFatal .pifContract (.frame c tx rx) s
    | some t =>
      match decode (fetchFrame c t rx s) with
      | .ok i => exec i s
      | .error _ => unknownJcmd (s.pifByte t) s

/-- A bus operation: the decoded instruction; a command word with an illegal opcode is run as the write that carries
it, which is fatal (43_flashram.md R137). -/
def presentBus (b : BusOp) (s : State) : Result :=
  match decode (fetchBus b) with
  | .ok i => exec i s
  | .error _ => exec (decodeBus b) s

/-- Present one operation of the closed list (10_state.md R12). -/
def present (o : Op) (s : State) : Result :=
  match o with
  | .pifProcess c tx rx => presentFrame c tx rx s
  | .bus b => presentBus b s

/-- One input of the outside world (R233): an operation, a host write to one byte of PIF RAM or main memory, the
scheduler advancing `now`, the storage collaborator clearing a `written` flag, new UI answers, or stores handed over
for the next `DeviceReset`. -/
def takeInput (i : Input) (s : State) : Result :=
  match i with
  | .op o => present o s
  | .hostPif a v => if a < s.pif.len then .next (s.setPif (s.pif.write .pif a v)) else .fault .hostOutsidePif
  | .hostDram a v => if a < s.dram.len then .next (s.setDram (s.dram.write .dram a v)) else .fault .hostOutsideDram
  | .advance n => .next { s with now := s.now + n }
  | .flashPersisted => .next (s.setFlash { s.flash with written := false })
  | .sramPersisted => .next (s.setSram { s.sram with written := false })
  | .ui u => .next { s with ui := u }
  | .handover h => .next { s with handover := h }

/-- The state in which the next input is `f`'s operation: for a frame the code byte is placed at `tx` and the channel
speaks the frame's protocol. -/
def placeFetched (f : Fetched) (s : State) : State :=
  match f with
  | .jcmd d c tx rx code =>
    { s with
      params := { s.params with device := s.params.device.set c d }
      pif := s.pif.write .pif tx code
      inbox := .op (.pifProcess c (some tx) rx) :: s.inbox }
  | .flcmd w => s.setInbox (.op (.bus (.flashMmioWrite 0x10000 w 0xFFFFFFFF#32)) :: s.inbox)
  | .busop b => s.setInbox (.op (.bus b) :: s.inbox)

end Sys2Proof.Machine
end

