-- ==== Sys2Proof/Machine/Step.lean ====
section
/-! DEFINITION. One step of the machine. -/

namespace Sys2Proof.Machine

/-- One step: the oldest input is taken out of the inbox and acted on. With none, "nothing executes until the host
presents an operation" (70_reset_and_hazards.md R228; log 1). -/
def step (s : State) : Host.Outcome State Fault Refusal :=
  match s.inbox with
  | [] => .next s
  | i :: rest => takeInput i (s.setInbox rest)

/-- The state in which the next step runs the instruction of this table word (log 2); `s` itself for a word of no
row. -/
def State.withFetchWord (s : State) (nbits w : Nat) : State :=
  match tableFetched nbits w with
  | none => s
  | some f => placeFetched f s

end Sys2Proof.Machine
end

