-- ==== Sys2Proof/Safety.lean ====
section
/-! DEFINITION. What counts as a safe run: the well-formedness every step keeps, the invariants that hold from reset,
and the good end state. -/

namespace Sys2Proof.Machine

/-- The constraints the spec puts on the launch parameters: four distinct status bits (10_state.md R18), three remap
constants (43_flashram.md R148), two distinct presence bytes (00_scope.md R6), at most one `Vru` channel
(45_vru.md R175). -/
def paramsOk (p : Params) : Bool :=
  decide [p.programBusyBit, p.eraseBusyBit, p.programSuccessBit, p.eraseSuccessBit].Nodup
    && p.remapX2Ids.length == 3
    && decide (p.pakPresent ≠ p.pakAbsent)
    && decide (([p.device.c0, p.device.c1, p.device.c2, p.device.c3].count .vru) ≤ 1)

/-- An optional memory is in canonical form. -/
def handedWf (sp : Space) (m : Option Memory) : Bool :=
  match m with
  | none => true
  | some m => m.wf sp

/-- An input brings only well-formed data. -/
def Input.wf (i : Input) : Bool :=
  match i with
  | .op o => o.wellFormed
  | .handover h => handedWf .flash h.flash && handedWf .sram h.sram
  | .hostPif _ _ | .hostDram _ _ | .advance _ | .flashPersisted | .sramPersisted | .ui _ => true

/-- The state is well formed: legal parameters, the four memories in canonical form, the page buffer of 128 bytes
(10_state.md R21), the word buffer of 40 slots (R28), and well-formed inputs to come. -/
structure State.WF (s : State) : Prop where
  params : paramsOk s.params = true
  pif : s.pif.wf .pif = true
  flash : s.flash.store.wf .flash = true
  sram : s.sram.store.wf .sram = true
  dram : s.dram.wf .dram = true
  pageBuf : s.flash.pageBuf.length = Config.pageSize
  wordBuffer : s.vru.wordBuffer.length = Config.vruSlots
  handedFlash : handedWf .flash s.handover.flash = true
  handedSram : handedWf .sram s.handover.sram = true
  inbox : ∀ i ∈ s.inbox, i.wf = true

/-- "If any `chan[x].change_pak != None` then `PakSwitch` is pending" (41_channel_dispatcher.md R95 d). -/
def State.SwitchPending (s : State) : Prop :=
  ∀ c : Channel, (s.chan.get c).changePak ≠ none → s.events.pakSwitch ≠ none

/-- The erase-busy bit is 0 (43_flashram.md R149). -/
def State.EraseBusyClear (s : State) : Prop := s.flash.status &&& statusMask s.params.eraseBusyBit = 0#32

/-- A pending VRU timeout finds `talking` true: it is cancelled when `talking` is switched off (45_vru.md R184,
R186). -/
def State.TimeoutWhileTalking (s : State) : Prop := s.events.vruTimeout ≠ none → s.vru.talking = true

/-- "A good end state when no fault latch is set" (70_reset_and_hazards.md R243). -/
def State.goodEnd (s : State) : Bool := decide (s.fault = ⟨none, none, none, none⟩)

/-- The next input of `s` is no `LoadState`. -/
def State.nextIsNoLoad (s : State) : Bool :=
  match s.inbox with
  | .op (.bus (.loadState _)) :: _ => false
  | _ => true

/-! ### Terms the statements share -/

/-- Channel `c` has device `d`, no latch halts it, and a frame with `txLen` bytes from `tx` and `rxLen` bytes from `r`
lies inside PIF RAM (41_channel_dispatcher.md R90, 20_memory.md R42). -/
def FrameReady (d : Device) (c : Channel) (tx r txLen rxLen : Nat) (s : State) : Prop :=
  s.fault.pif = none ∧ s.device c = d ∧ (d = .vru → s.fault.vru = none) ∧ tx + txLen ≤ s.pif.len ∧
    r + rxLen ≤ s.pif.len

/-- Every PIF RAM byte outside `lo .. lo+n-1` reads as before. -/
def PifUnchangedOutside (lo n : Nat) (s t : State) : Prop :=
  t.pif.len = s.pif.len ∧ ∀ a, a < lo ∨ lo + n ≤ a → t.pifByte a = s.pifByte a

/-- What byte `i` of a store of space `sp` reads as once the store is formatted to `size` (20_memory.md R50). -/
def formattedRead (sp : Space) (size : Nat) (m : Memory) (i : Nat) : Byte :=
  if i < m.len then m.read sp i else if i < size then 0xFF#8 else 0x00#8

/-- Only the latch of `k`'s subsystem has changed, and the host has been told (60_exceptions.md R195). -/
def FatalTaken (k : FatalKind) (info : FatalInfo) (s t : State) : Prop :=
  t = { s with fault := setLatch s.fault (fatalSubsystem k) k, out := s.out ++ [.fatal k info] }

end Sys2Proof.Machine
end

