-- ==== Sys2Proof/Certificates/Slice0/Obligations.lean ====
section
/-! DEFINITION. The statements for the provers. Where a docstring says "choice", the clause rests on a decision of
92_eei_decisions.md (D<n>) or on a log entry, not on the source's own words. -/

open Sys2Proof Sys2Proof.Machine

/-! ### Reset and invariants -/

/-- The reset values of 10_state.md section 8 that the spec gives, and the shared invariants at reset. Choices: D13,
D27, D28, D31, D34 (the table's decisions). -/
def Obligations.ResetStateIsAsSpecified : Prop :=
  State.reset.chan = Quad.all ⟨none, none⟩ ∧
  State.reset.flash.status = 0#32 ∧ State.reset.flash.mode = .readArray ∧ State.reset.flash.erasePage = 0#16 ∧
  State.reset.flash.pageBuf = List.replicate 128 0x00#8 ∧
  State.reset.flash.siliconId0 = State.reset.params.siliconId0 ∧
  State.reset.flash.siliconId1 = State.reset.params.siliconId1 ∧
  State.reset.flash.written = false ∧ State.reset.sram.written = false ∧
  State.reset.vru.voiceState = resetVoice State.reset.params.romRegion ∧
  State.reset.vru.talking = false ∧ State.reset.vru.words = [] ∧
  State.reset.events = ⟨none, none⟩ ∧ State.reset.fault = ⟨none, none, none, none⟩ ∧
  State.reset.WF ∧ State.reset.SwitchPending ∧ State.reset.EraseBusyClear ∧ State.reset.TimeoutWhileTalking ∧
  State.reset.goodEnd = true

/-- Every step keeps the well-formedness of the state: legal parameters, the four memories canonical, a page buffer of
128 bytes, a word buffer of 40 slots. Choice: the canonical form is the model's (log 30). -/
def Obligations.StepKeepsWellFormed : Prop :=
  ∀ s t : State, s.WF → step s = .next t → t.WF

/-- "If any `chan[x].change_pak != None` then `PakSwitch` is pending" is kept by every step (R95 d, which the spec
derives; a `LoadState` does not break it, because it loads neither field, log 23). -/
def Obligations.StepKeepsSwitchPending : Prop :=
  ∀ s t : State, s.SwitchPending → step s = .next t → t.SwitchPending

/-- The erase-busy bit is never seen set (R149, which the spec derives): every step but a `LoadState` keeps it 0. -/
def Obligations.StepKeepsEraseBusyClear : Prop :=
  ∀ s t : State, s.WF → s.nextIsNoLoad = true → s.EraseBusyClear → step s = .next t → t.EraseBusyClear

/-- A pending VRU timeout always finds `talking` true: "if `talking` is set false before the timeout, the pending
timeout event must not fire" (R186). Every step but a `LoadState` keeps it. Choice: D31 (what a VRU reset clears). -/
def Obligations.StepKeepsTimeoutWhileTalking : Prop :=
  ∀ s t : State, s.nextIsNoLoad = true → s.TimeoutWhileTalking → step s = .next t → t.TimeoutWhileTalking

/-! ### Encoding -/

/-- Decode and encode agree, in both directions: a well-formed instruction decodes back from its encoding with every
operand, and whatever decodes has the encoding it was fetched from, up to the bits the spec says are ignored. -/
def Obligations.DecodeAndEncodeAgree : Prop :=
  (∀ i : Instr, i.wellFormed = true → decode (encode i) = .ok i) ∧
  (∀ d c tx rx code i, decode (.jcmd d c tx rx code) = .ok i → ∃ d', encode i = .jcmd d' c tx rx code) ∧
  (∀ w i, decode (.flcmd w) = .ok i →
    ∃ w', encode i = .flcmd w' ∧ flOpcode w' = flOpcode w ∧ w'.extractLsb' 16 8 = 0#8 ∧ decode (.flcmd w') = .ok i) ∧
  (∀ b i, decode (.busop b) = .ok i → encode i = .busop b)

/-- Words written out from the opcode maps of 30_encoding.md decode to the instructions they stand for. -/
def Obligations.OpcodeWordsDecode : Prop :=
  decode (.jcmd .controller 1 0x10 (some 0x14) 0x00#8) = .ok (.status 1 0x10 (some 0x14)) ∧
  decode (.jcmd .controller 0 0 (some 1) 0x02#8) = .ok (.pakRead 0 0 (some 1)) ∧
  decode (.jcmd .vru 3 0 (some 1) 0x0C#8) = .ok (.vruWriteConfig 3 0 (some 1)) ∧
  decode (.jcmd .vru 3 0 (some 1) 0xFF#8) = .ok (.reset 3 0 (some 1)) ∧
  decode (.flcmd 0x3C000000#32) = .ok .flChipEraseMode ∧
  decode (.flcmd 0x4B000080#32) = .ok (.flSectorEraseMode 0x0080#16) ∧
  decode (.flcmd 0xA5000003#32) = .ok (.flProgramExecute 0x0003#16) ∧
  decode (.flcmd 0xE1FFFFFF#32) = .ok .flReadSiliconIdMode ∧
  decode (.busop (.sramMmioRead 0x8010)) = .ok (.sramMmioRead 0x8010)

/-- The codes outside the three maps are rejected by name: the 248 illegal FlashRAM opcodes (R69), every code outside
the map of a `Controller` channel (R67), the VRU codes among them (R70), and every code outside the VRU's superset
(R68; that a VRU channel's other codes are unknown JCMDs is the model's reading, log 16). -/
def Obligations.CodesOutsideTheMapsAreRejected : Prop :=
  (∀ w : Word, flOpcode w ∉ [0x3C#8, 0x4B#8, 0x78#8, 0xA5#8, 0xB4#8, 0xD2#8, 0xE1#8, 0xF0#8] →
    decode (.flcmd w) = .error (.unknownFlashCommand w)) ∧
  (∀ c tx rx (code : Byte), code ∉ [0x00#8, 0x01#8, 0x02#8, 0x03#8, 0xFF#8] →
    decode (.jcmd .controller c tx rx code) = .error (.unknownJcmd code)) ∧
  (∀ c tx rx (code : Byte),
    code ∉ [0x00#8, 0x01#8, 0x02#8, 0x03#8, 0xFF#8, 0x09#8, 0x0A#8, 0x0B#8, 0x0C#8, 0x0D#8] →
    decode (.jcmd .vru c tx rx code) = .error (.unknownJcmd code))

/-! ### One step -/

/-- A `PifProcess` runs the command whose code lies at `tx_buf` now (R58, R90): the step is that instruction's meaning,
in the state with the input taken out of the inbox. -/
def Obligations.StepRunsTheFrameCommand : Prop :=
  ∀ (s : State) (c : Channel) (t : Nat) (rx : Option Nat) (rest : List Input) (i : Instr),
    s.inbox = .op (.pifProcess c (some t) rx) :: rest → pifGate c s = none → t < s.pif.len →
    decode (.jcmd (s.device c) c t rx (s.pifByte t)) = .ok i →
    step s = exec i (s.setInbox rest)

/-- A bus operation runs the instruction it decodes to; a full-width write at the reduced address `0x10000` is decoded
as the FlashRAM command word it carries (R62, R127). -/
def Obligations.StepRunsTheBusOperation : Prop :=
  (∀ (s : State) (b : BusOp) (rest : List Input) (i : Instr),
    s.inbox = .op (.bus b) :: rest → decode (fetchBus b) = .ok i → step s = exec i (s.setInbox rest)) ∧
  (∀ (a : Nat) (v : Word), a % 131072 = 0x10000 → fetchBus (.flashMmioWrite a v 0xFFFFFFFF#32) = .flcmd v)

/-- An unknown code on a controller channel is logged and changes nothing (R100; the empty effect is choice D7). -/
def Obligations.UnknownCommandIsLoggedOnly : Prop :=
  ∀ (s : State) (c : Channel) (t : Nat) (rx : Option Nat) (rest : List Input),
    s.inbox = .op (.pifProcess c (some t) rx) :: rest → s.fault.pif = none → s.device c = .controller →
    t < s.pif.len → 0x04 ≤ (s.pifByte t).toNat → (s.pifByte t).toNat ≤ 0xFE →
    step s = .next { s with inbox := rest, out := s.out ++ [.unknownJcmd (s.pifByte t)] }

/-- A broken frame contract is `F_PIF_CONTRACT` with nothing else changed: an absent or out-of-range `tx_buf`, and for
each of the five generic commands an absent `rx_buf` or a frame byte outside PIF RAM (R90, R42). Choices: D8 (range),
D28 (what a fatal changes). The same holds on a `Vru` channel of `STATUS`, `RESET` and the three VRU commands that run,
and of a `WRITE_CONFIG` window outside PIF RAM: there the footprints are the model's choices (log 15, 19, 36). -/
def Obligations.BrokenFrameContractIsFatal : Prop :=
  (∀ (s : State) (c : Channel) (tx rx : Option Nat) (rest : List Input),
    s.inbox = .op (.pifProcess c tx rx) :: rest → pifGate c s = none → (∀ t, tx = some t → s.pif.len ≤ t) →
    ∃ t, step s = .next t ∧ FatalTaken .pifContract (.frame c tx rx) { s with inbox := rest } t) ∧
  (∀ (s : State) (c : Channel) (tx : Nat) (rx : Option Nat), s.fault.pif = none → s.device c = .controller →
    ∀ p ∈ [(Instr.status c tx rx, 1, 3), (.controllerRead c tx rx, 1, 4), (.pakRead c tx rx, 3, 33),
        (.pakWrite c tx rx, 35, 1), (.reset c tx rx, 1, 3)],
      (s.pif.len < tx + p.2.1 ∨ ∀ r, rx = some r → s.pif.len < r + p.2.2) →
      ∃ t, exec p.1 s = .next t ∧ FatalTaken .pifContract (.frame c (some tx) rx) s t) ∧
  (∀ (s : State) (c : Channel) (tx : Nat) (rx : Option Nat), s.fault.pif = none → s.fault.vru = none →
    s.device c = .vru →
    (∀ p ∈ [(Instr.status c tx rx, 3), (.reset c tx rx, 3), (.vruRead c tx rx, s.params.vruReadLen),
        (.vruReadStatus c tx rx, s.params.vruReadStatusLen), (.vruWriteConfig c tx rx, s.params.vruWriteConfigLen)],
      (s.pif.len < tx + 1 ∨ (rx = none ∧ p.2 ≠ 0) ∨ ∃ r, rx = some r ∧ s.pif.len < r + p.2) →
      ∃ t, exec p.1 s = .next t ∧ FatalTaken .pifContract (.frame c (some tx) rx) s t) ∧
    (s.pif.len < vruWindowStart s.params tx + 4 →
      ∃ t, exec (.vruWriteConfig c tx rx) s = .next t ∧ FatalTaken .pifContract (.frame c (some tx) rx) s t))

/-! ### Dispatcher -/

/-- `STATUS` and `RESET` on a controller channel complete: they write the flavor and the presence byte and change
nothing else (R92, R93). Choices: D4 (byte positions), D39 (`RESET` reinitialises nothing here). -/
def Obligations.StatusAndResetAnswer : Prop :=
  ∀ (s : State) (c : Channel) (tx r : Nat), s.WF → FrameReady .controller c tx r 1 3 s →
    ∀ i ∈ [Instr.status c tx (some r), .reset c tx (some r)],
      ∃ t, exec i s = .next t ∧
        t.pifByte r = s.params.flavor0 ∧ t.pifByte (r + 1) = s.params.flavor1 ∧
        t.pifByte (r + 2) = (if s.handler c = none then s.params.pakAbsent else s.params.pakPresent) ∧
        PifUnchangedOutside r 3 s t ∧ t = { s with pif := t.pif }

/-- `STATUS` and `RESET` on a VRU channel complete; the three answer bytes are free (log 15). `RESET` enters the
region's `voice_state` (R177); choice D31: `talking` false, `words` empty, the timeout cancelled. -/
def Obligations.VruStatusAndResetAnswer : Prop :=
  ∀ (s : State) (c : Channel) (tx r : Nat), s.WF → FrameReady .vru c tx r 1 3 s →
    (∃ t, exec (.status c tx (some r)) s = .next t ∧ PifUnchangedOutside r 3 s t ∧
      t = { s with pif := t.pif, draws := s.draws + 1 }) ∧
    (∃ t, exec (.reset c tx (some r)) s = .next t ∧ PifUnchangedOutside r 3 s t ∧
      t.vru.voiceState = (if s.params.romRegion = 0x4A#8 ∨ s.params.romRegion = 0x00#8 then .ready else .start) ∧
      t.vru.talking = false ∧ t.vru.words = [] ∧
      t = { s with
        pif := t.pif, vru := t.vru, events := { s.events with vruTimeout := none }, draws := s.draws + 1 })

/-- `CONTROLLER_READ` completes and writes the four input bytes (R94; order is choice D5), whatever becomes of the
gesture, unless the gesture falls on a channel with no handler; with no gesture, or with a switch already pending,
nothing else changes (R95). -/
def Obligations.ControllerReadAnswersInput : Prop :=
  ∀ (s : State) (c : Channel) (tx r : Nat), s.WF → FrameReady .controller c tx r 1 4 s →
    ((s.ui.poll.get c).gesture = false ∨ s.events.pakSwitch ≠ none ∨ s.handler c ≠ none) →
    ∃ t, exec (.controllerRead c tx (some r)) s = .next t ∧
      (∀ k, k < 4 → t.pifByte (r + k) = (s.ui.poll.get c).keys.extractLsb' (24 - 8 * k) 8) ∧
      PifUnchangedOutside r 4 s t ∧
      ((s.ui.poll.get c).gesture = false ∨ s.events.pakSwitch ≠ none → t = { s with pif := t.pif })

/-- An accepted gesture "schedules one at `now + clock_rate` cycles, captures the current handler's kind into
`change_pak`, and clears the handler" (R95), with the four input bytes written; on a channel with no handler it does
what the parameter says (R96): by D6's choice no step, else one of the three candidates (log 13). -/
def Obligations.GestureStartsPakSwitch : Prop :=
  ∀ (s : State) (c : Channel) (tx r : Nat), s.WF → FrameReady .controller c tx r 1 4 s →
    (s.ui.poll.get c).gesture = true → s.events.pakSwitch = none →
    let inputWritten := fun t : State => PifUnchangedOutside r 4 s t ∧
      ∀ k, k < 4 → t.pifByte (r + k) = (s.ui.poll.get c).keys.extractLsb' (24 - 8 * k) 8
    (∀ k, s.handler c = some k →
      ∃ t, exec (.controllerRead c tx (some r)) s = .next t ∧ inputWritten t ∧
        t = { s with
          pif := t.pif, events := { s.events with pakSwitch := some (s.now + s.params.clockRate) },
          chan := s.chan.set c ⟨none, some k⟩ }) ∧
    (s.handler c = none →
      (s.params.gestureWithoutPak = .refuse →
        exec (.controllerRead c tx (some r)) s = .refused (.gestureWithoutPak c)) ∧
      (s.params.gestureWithoutPak = .ignore →
        ∃ t, exec (.controllerRead c tx (some r)) s = .next t ∧ inputWritten t ∧
          t = { s with pif := t.pif }) ∧
      (s.params.gestureWithoutPak = .schedule →
        ∃ t, exec (.controllerRead c tx (some r)) s = .next t ∧ inputWritten t ∧
          t = { s with
            pif := t.pif, events := { s.events with pakSwitch := some (s.now + s.params.clockRate) },
            chan := s.chan.set c ⟨none, none⟩ }) ∧
      (s.params.gestureWithoutPak = .fatal →
        ∃ t, exec (.controllerRead c tx (some r)) s = .next t ∧
          FatalTaken .pifContract (.frame c (some tx) (some r)) s t))

/-- `PAK_READ` with no handler completes: the region is untouched and the check byte is the complement of its CRC
(R97). Choice: D3 (positions). -/
def Obligations.PakReadWithoutPak : Prop :=
  ∀ (s : State) (c : Channel) (tx r : Nat), s.WF → FrameReady .controller c tx r 3 33 s → s.handler c = none →
    ∃ t, exec (.pakRead c tx (some r)) s = .next t ∧
      t.pifByte (r + 32) = ~~~crcBytes ((List.range 32).map (fun k => s.pifByte (r + k))) ∧
      PifUnchangedOutside (r + 32) 1 s t ∧ t = { s with pif := t.pif }

/-- `PAK_READ` with a handler completes: the handler is asked for 32 bytes at the decoded address, they fill the chunk,
and the check byte is their plain CRC (R97); no other channel's pak is touched (R210). Choices: D3 (positions), D9 (the
handler's contract). -/
def Obligations.PakReadWithPak : Prop :=
  ∀ (s : State) (c : Channel) (tx r : Nat) (k : PakKind), s.WF → FrameReady .controller c tx r 3 33 s →
    s.handler c = some k →
    let call : PakCall := ⟨k, c, pakAddress (s.pifByte (tx + 1)) (s.pifByte (tx + 2)), r, 32⟩
    let p := s.pakState.get c
    ∃ t, exec (.pakRead c tx (some r)) s = .next t ∧
      (∀ n, n < 32 → t.pifByte (r + n) = Config.pakReadByte call p n) ∧
      t.pifByte (r + 32) = crcBytes ((List.range 32).map (Config.pakReadByte call p)) ∧
      PifUnchangedOutside r 33 s t ∧
      t.pakState.get c = Config.pakReadState call p ∧ (∀ d, d ≠ c → t.pakState.get d = s.pakState.get d) ∧
      t = { s with pif := t.pif, pakState := t.pakState }

/-- `PAK_WRITE` completes: the check byte is the CRC of the 32 data bytes, plain with a handler and complemented with
none; the handler gets the data at the decoded address (R98); no other channel's pak is touched (R210). Choices: D3
(positions), D9 (the handler's contract). -/
def Obligations.PakWriteSealsTheData : Prop :=
  ∀ (s : State) (c : Channel) (tx r : Nat), s.WF → FrameReady .controller c tx r 35 1 s →
    let data := (List.range 32).map (fun n => s.pifByte (tx + 3 + n))
    (s.handler c = none →
      ∃ t, exec (.pakWrite c tx (some r)) s = .next t ∧ t.pifByte r = ~~~crcBytes data ∧
        PifUnchangedOutside r 1 s t ∧ t = { s with pif := t.pif }) ∧
    (∀ k, s.handler c = some k →
      let call : PakCall := ⟨k, c, pakAddress (s.pifByte (tx + 1)) (s.pifByte (tx + 2)), tx + 3, 32⟩
      let p := s.pakState.get c
      ∃ t, exec (.pakWrite c tx (some r)) s = .next t ∧ t.pifByte r = crcBytes data ∧
        PifUnchangedOutside r 1 s t ∧
        t.pakState.get c = Config.pakWriteState call data p ∧ (∀ d, d ≠ c → t.pakState.get d = s.pakState.get d) ∧
        t = { s with
          pif := t.pif, pakState := t.pakState,
          out := s.out ++ (Config.pakWriteRumble call data p).map (.rumble c) })

/-- The pak address (R64): `byte0` above the top three bits of `byte1`, a multiple of 32 in 16 bits; the low five bits
of `byte1` do not enter it; the handler's call takes it from `tx_buf+1` and `tx_buf+2`. -/
def Obligations.PakAddressForm : Prop :=
  (∀ b0 b1 : Byte, (pakAddress b0 b1).toNat = b0.toNat * 256 + (b1.toNat &&& 0xE0) ∧
    (pakAddress b0 b1).toNat % 32 = 0 ∧ ∀ b1' : Byte, b1' &&& 0xE0#8 = b1 &&& 0xE0#8 →
      pakAddress b0 b1' = pakAddress b0 b1) ∧
  (∀ (k : PakKind) (c : Channel) (tx off : Nat) (s : State),
    (pakCall k c tx off s).address = pakAddress (s.pifByte (tx + 1)) (s.pifByte (tx + 2)))

/-- The "no pak" sentinel (R99): with no handler the check byte is the exclusive or with `0xFF` of the one a handler
would get over the same bytes, no latch is set and no diagnostic is sent. -/
def Obligations.NoPakSentinelIsComplement : Prop :=
  ∀ (s t u : State) (c : Channel) (tx r : Nat) (k : PakKind) (p : Option PakKind), s.WF →
    (exec (.pakWrite c tx (some r)) (s.setChan c ⟨some k, p⟩) = .next t →
      exec (.pakWrite c tx (some r)) (s.setChan c ⟨none, p⟩) = .next u → t.fault = s.fault →
      u.pifByte r = t.pifByte r ^^^ 0xFF#8 ∧ u.fault = s.fault ∧ u.out = s.out) ∧
    (exec (.pakRead c tx (some r)) (s.setChan c ⟨some k, p⟩) = .next t →
      exec (.pakRead c tx (some r)) (s.setChan c ⟨none, p⟩) = .next u → t.fault = s.fault →
      (∀ n, n < 32 → u.pifByte (r + n) = t.pifByte (r + n)) →
      u.pifByte (r + 32) = t.pifByte (r + 32) ^^^ 0xFF#8 ∧ u.fault = s.fault ∧ u.out = s.out)

/-- On a VRU channel `CONTROLLER_READ`, `PAK_READ` and `PAK_WRITE` have no step: whether they are answered at all is
open (R176; log 15). -/
def Obligations.PakCommandsAreOpenOnVru : Prop :=
  ∀ (s : State) (c : Channel) (tx : Nat) (rx : Option Nat), s.fault.pif = none → s.fault.vru = none →
    s.device c = .vru →
    ∀ i ∈ [Instr.controllerRead c tx rx, .pakRead c tx rx, .pakWrite c tx rx],
      exec i s = .refused (.vruGenericOpen c)

/-! ### Pak switching -/

/-- The rotation (R113): the fixed three-cycle. -/
def Obligations.RotationIsTheThreeCycle : Prop :=
  rotate .memPak = .rumblePak ∧ rotate .rumblePak = .transferPak ∧ rotate .transferPak = .memPak ∧
  ∀ k, rotate (rotate (rotate k)) = k

/-- `PakSwitchEvent` completes while pending (R118): the registration is consumed, every channel with a pending
rotation is bound to the next kind with its rumble stopped, one cue and `change_pak` cleared, every other channel is
untouched, its pak's state too (R118 b, R210). Choice: D11 (index order, the registration removed). -/
def Obligations.PakSwitchEventRotates : Prop :=
  ∀ (s : State) (n : Nat), s.fault.pif = none → s.events.pakSwitch = some n →
    let switching := ([0, 1, 2, 3] : List Channel).filter (fun c => (s.chan.get c).changePak.isSome)
    ∃ t, exec .pakSwitchEvent s = .next t ∧
      (∀ c k, (s.chan.get c).changePak = some k →
        t.chan.get c = ⟨some (rotate k), none⟩ ∧
        t.pakState.get c = Config.pakStopRumble c (s.pakState.get c)) ∧
      (∀ c, (s.chan.get c).changePak = none →
        t.chan.get c = s.chan.get c ∧ t.pakState.get c = s.pakState.get c) ∧
      t = { s with
        chan := t.chan, events := { s.events with pakSwitch := none },
        pakState := t.pakState,
        out := s.out ++ switching.flatMap (fun c => [.rumble c false, .audioCue]) }

/-- `InstallPak` completes outside the channel's switch window and binds the kind; inside it has no step (R114, choice
D9). That the binding is the same on a channel whose device is no `Controller` is the model's choice (log 24): R175 says
that a `Vru` channel has no pak. -/
def Obligations.InstallPakBindsOutsideTheWindow : Prop :=
  ∀ (s : State) (c : Channel) (k : PakKind), s.fault.pif = none →
    ((s.chan.get c).changePak = none →
      ∃ t, exec (.installPak c k) s = .next t ∧ t.handler c = some k ∧ (t.chan.get c).changePak = none ∧
        (∀ d, d ≠ c → t.chan.get d = s.chan.get d) ∧ t = { s with chan := t.chan }) ∧
    (∀ k', (s.chan.get c).changePak = some k' → exec (.installPak c k) s = .refused (.installDuringSwitch c))

/-! ### FlashRAM -/

/-- The five commands that set the mode and no flag (R128, R129, R133, R134, R136), whatever the bits of the word that
they ignore (the spec derives that `value[23:16]` is ignored, R62; log 31), complete in any mode and change nothing
else but, for `0x4B`, `erase_page`, stored whole; a status read after `0xD2` returns the unchanged status. -/
def Obligations.FlashModeCommandsSetTheMode : Prop :=
  (∀ w : Word,
    (flOpcode w = 0x3C#8 → decode (.flcmd w) = .ok .flChipEraseMode) ∧
    (flOpcode w = 0x4B#8 → decode (.flcmd w) = .ok (.flSectorEraseMode (w.extractLsb' 0 16))) ∧
    (flOpcode w = 0xB4#8 → decode (.flcmd w) = .ok .flPageProgramMode) ∧
    (flOpcode w = 0xD2#8 → decode (.flcmd w) = .ok .flStatusMode) ∧
    (flOpcode w = 0xF0#8 → decode (.flcmd w) = .ok .flReadArrayMode)) ∧
  ∀ s : State, s.fault.flash = none →
    exec .flChipEraseMode s = .next { s with flash := { s.flash with mode := .chipErase } } ∧
    (∀ a : Half, exec (.flSectorEraseMode a) s =
      .next { s with flash := { s.flash with mode := .sectorErase, erasePage := a } }) ∧
    exec .flPageProgramMode s = .next { s with flash := { s.flash with mode := .pageProgram } } ∧
    exec .flReadArrayMode s = .next { s with flash := { s.flash with mode := .readArray } } ∧
    (∃ t, exec .flStatusMode s = .next t ∧ t = { s with flash := { s.flash with mode := .status } } ∧
      exec (.flashMmioRead 0) t = .next { t with out := t.out ++ [.returned s.flash.status] })

/-- `0xE1` completes, sets the program-busy bit and leaves it set (R135): no FlashRAM command but `0xA5` changes it, and
a status read after `0xE1`, `0xD2` shows it. -/
def Obligations.SiliconIdModeSetsProgramBusy : Prop :=
  (∀ w : Word, flOpcode w = 0xE1#8 → decode (.flcmd w) = .ok .flReadSiliconIdMode) ∧
  ∀ s : State, s.fault.flash = none →
    exec .flReadSiliconIdMode s = .next { s with
      flash := { s.flash with
        mode := .readSiliconId
        status := s.flash.status ||| (1#32 <<< s.params.programBusyBit.val) } } ∧
    (paramsOk s.params = true → s.flash.status.getLsbD s.params.programBusyBit.val = true →
      ∀ (a : Half) (t : State), ∀ i ∈ [Instr.flChipEraseMode, .flSectorEraseMode a, .flEraseExecute,
          .flPageProgramMode, .flStatusMode, .flReadSiliconIdMode, .flReadArrayMode],
        exec i s = .next t → t.flash.status.getLsbD s.params.programBusyBit.val = true) ∧
    (∀ t u : State, exec .flReadSiliconIdMode s = .next t → exec .flStatusMode t = .next u →
      exec (.flashMmioRead 0) u = .next { u with
        out := u.out ++ [.returned (s.flash.status ||| (1#32 <<< s.params.programBusyBit.val))] })

/-- `0x78` in mode `SectorErase` completes for a sector of the store: exactly the sector's 16KB read `0xFF`, the store
is dirty, erase-success is set, busy is clear, the mode is `Status` (R131). Choices: C1 (`0xFF`), D17 (the format). -/
def Obligations.SectorEraseErasesOneSector : Prop :=
  ∀ s : State, s.WF → s.fault.flash = none → s.flash.mode = .sectorErase →
    (s.flash.erasePage.toNat &&& 0xFF80) ≤ 0x0380 →
    let base := (s.flash.erasePage.toNat &&& 0xFF80) * 128
    ∃ t, exec .flEraseExecute s = .next t ∧
      t.flash.store.len = max s.flash.store.len 131072 ∧
      (∀ i, base ≤ i → i < base + 16384 → t.flash.store.read .flash i = 0xFF#8) ∧
      (∀ i, i < base ∨ base + 16384 ≤ i →
        t.flash.store.read .flash i = formattedRead .flash 131072 s.flash.store i) ∧
      t = { s with
        flash := { s.flash with
          store := t.flash.store
          written := true
          status := (s.flash.status &&& ~~~(1#32 <<< s.params.eraseBusyBit.val)) |||
            (1#32 <<< s.params.eraseSuccessBit.val)
          mode := .status } }

/-- `0x78` in mode `ChipErase` completes: "every byte of the 128KB store equals `0xFF`, the busy bit is clear, the
success bit is set, and `mode == Status`" (R131). Choices: C1, D17. -/
def Obligations.ChipEraseErasesTheStore : Prop :=
  ∀ s : State, s.WF → s.fault.flash = none → s.flash.mode = .chipErase →
    ∃ t, exec .flEraseExecute s = .next t ∧
      t.flash.store.len = max s.flash.store.len 131072 ∧
      (∀ i, i < 131072 → t.flash.store.read .flash i = 0xFF#8) ∧
      (∀ i, 131072 ≤ i → t.flash.store.read .flash i = s.flash.store.read .flash i) ∧
      t = { s with
        flash := { s.flash with
          store := t.flash.store
          written := true
          status := (s.flash.status &&& ~~~(1#32 <<< s.params.eraseBusyBit.val)) |||
            (1#32 <<< s.params.eraseSuccessBit.val)
          mode := .status } }

/-- `0x78` in any other mode completes and erases nothing, yet marks the store dirty, sets erase-success and goes to
`Status` (R131 a; choices D18, D17). -/
def Obligations.EraseOutsideEraseModesErasesNothing : Prop :=
  ∀ s : State, s.WF → s.fault.flash = none → s.flash.mode ≠ .sectorErase → s.flash.mode ≠ .chipErase →
    ∃ t, exec .flEraseExecute s = .next t ∧
      t.flash.store.len = max s.flash.store.len 131072 ∧
      (∀ i, t.flash.store.read .flash i = formattedRead .flash 131072 s.flash.store i) ∧
      t = { s with
        flash := { s.flash with
          store := t.flash.store
          written := true
          status := (s.flash.status &&& ~~~(1#32 <<< s.params.eraseBusyBit.val)) |||
            (1#32 <<< s.params.eraseSuccessBit.val)
          mode := .status } }

/-- `0xA5` completes in any mode for a page of the store: the 128 bytes at `page * 128` become the page buffer, no
other byte changes, the store is dirty, program-success is set, program-busy is clear, the mode is `Status` (R132).
Choice: D17 (the format). -/
def Obligations.ProgramCopiesThePageBuffer : Prop :=
  ∀ (s : State) (page : Half), s.WF → s.fault.flash = none → page.toNat ≤ 0x03FF →
    ∃ t, exec (.flProgramExecute page) s = .next t ∧
      t.flash.store.len = max s.flash.store.len 131072 ∧
      (∀ i, i < 128 → t.flash.store.read .flash (page.toNat * 128 + i) = s.flash.pageBuf.getD i 0x00#8) ∧
      (∀ i, i < page.toNat * 128 ∨ page.toNat * 128 + 128 ≤ i →
        t.flash.store.read .flash i = formattedRead .flash 131072 s.flash.store i) ∧
      t = { s with
        flash := { s.flash with
          store := t.flash.store
          written := true
          status := (s.flash.status &&& ~~~(1#32 <<< s.params.programBusyBit.val)) |||
            (1#32 <<< s.params.programSuccessBit.val)
          mode := .status } }

/-- Erase and program targets beyond the store are `F_FLASH_RANGE` with nothing else changed (R130, choice D16). -/
def Obligations.FlashTargetsBeyondTheStoreAreFatal : Prop :=
  ∀ s : State, s.fault.flash = none →
    (s.flash.mode = .sectorErase → 0x0380 < (s.flash.erasePage.toNat &&& 0xFF80) →
      ∃ t, exec .flEraseExecute s = .next t ∧ FatalTaken .flashRange (.page s.flash.erasePage.toNat) s t) ∧
    (∀ page : Half, 0x03FF < page.toNat →
      ∃ t, exec (.flProgramExecute page) s = .next t ∧ FatalTaken .flashRange (.page page.toNat) s t)

/-- A full-width write at the reduced address `0x10000` is the command it carries, in every mode (R127), and completes
unless the command's target lies beyond the store. Choices: D19, D20 (shape). -/
def Obligations.FlashWriteRunsTheCommand : Prop :=
  ∀ (s : State) (addr : Nat) (value : Word) (i : Instr), s.fault.flash = none → addr % 131072 = 0x10000 →
    decode (.flcmd value) = .ok i →
    exec (.flashMmioWrite addr value 0xFFFFFFFF#32) s = exec i s ∧
    ((i = .flEraseExecute → s.flash.mode = .sectorErase → (s.flash.erasePage.toNat &&& 0xFF80) ≤ 0x0380) →
      (∀ page : Half, i = .flProgramExecute page → page.toNat ≤ 0x03FF) →
      ∃ t, exec (.flashMmioWrite addr value 0xFFFFFFFF#32) s = .next t ∧ t.fault = s.fault ∧ t.out = s.out)

/-- The illegal FlashRAM shapes are fatal and change nothing else: a write at another offset or of part of the word,
an unknown opcode (R127, R137, R139), a read at another offset or in one of four modes (R141), a DMA read that is no
page load (R143), a DMA write of neither shape (R144). Choices: D19, D20, D28. -/
def Obligations.IllegalFlashShapesAreFatal : Prop :=
  ∀ s : State, s.fault.flash = none →
    (∀ addr value mask, (addr % 131072 ≠ 0x10000 ∨ mask ≠ 0xFFFFFFFF#32) →
      ∃ t, exec (.flashMmioWrite addr value mask) s = .next t ∧
        FatalTaken .flashMmioShape (.mmio addr s.flash.mode) s t) ∧
    (∀ addr value, addr % 131072 = 0x10000 →
      flOpcode value ∉ [0x3C#8, 0x4B#8, 0x78#8, 0xA5#8, 0xB4#8, 0xD2#8, 0xE1#8, 0xF0#8] →
      ∃ t, exec (.flashMmioWrite addr value 0xFFFFFFFF#32) s = .next t ∧
        FatalTaken .flashUnknownCommand (.value value) s t) ∧
    (∀ addr, (addr % 131072 ≠ 0 ∨ (s.flash.mode ≠ .status ∧ s.flash.mode ≠ .readArray)) →
      ∃ t, exec (.flashMmioRead addr) s = .next t ∧ FatalTaken .flashMmioShape (.mmio addr s.flash.mode) s t) ∧
    (∀ cart dram len, (s.flash.mode ≠ .pageProgram ∨ len ≠ 128) →
      ∃ t, exec (.flashDmaRead cart dram len) s = .next t ∧
        FatalTaken .flashDmaShape (.dmaRead cart len s.flash.mode) s t) ∧
    (∀ cart dram len, ¬(s.flash.mode = .readSiliconId ∧ cart % 131072 = 0 ∧ len = 8) →
      ¬(s.flash.mode = .readArray ∧ len < 0x10000) →
      ∃ t, exec (.flashDmaWrite cart dram len) s = .next t ∧
        FatalTaken .flashDmaShape (.dmaWrite cart len s.flash.mode) s t)

/-- `FlashMmioRead` at the reduced offset 0 completes in mode `Status` with the status and in mode `ReadArray` with the
dummy 0, and changes nothing (R140). Choice: D20 (the reduction). -/
def Obligations.FlashReadReturnsStatusOrDummy : Prop :=
  ∀ (s : State) (addr : Nat), s.fault.flash = none → addr % 131072 = 0 →
    (s.flash.mode = .status →
      exec (.flashMmioRead addr) s = .next { s with out := s.out ++ [.returned s.flash.status] }) ∧
    (s.flash.mode = .readArray →
      exec (.flashMmioRead addr) s = .next { s with out := s.out ++ [.returned 0#32] })

/-- The page load completes: in mode `PageProgram` 128 main-memory bytes fill the page buffer, bytes beyond main memory
read `0x00`; the mode, the store and everything else are unchanged (R142, R47, R48). Choices: D21 (any cartridge
address), D23, D38. -/
def Obligations.PageLoadFillsThePageBuffer : Prop :=
  ∀ (s : State) (cart dram : Nat), s.fault.flash = none → s.flash.mode = .pageProgram →
    ∃ t, exec (.flashDmaRead cart dram 128) s = .next t ∧ t.flash.pageBuf.length = 128 ∧
      (∀ i, i < 128 → t.flash.pageBuf.getD i 0x00#8 =
        if (dram + i) ^^^ s.params.dramIndexXor < s.dram.len then
          s.dram.read .dram ((dram + i) ^^^ s.params.dramIndexXor) else 0x00#8) ∧
      t = { s with flash := { s.flash with pageBuf := t.flash.pageBuf } }

/-- The Silicon-ID readout completes: the two identifier words reach main memory as 8 bytes, no other byte changes
(R145). Choices: D22 (byte order), D20, D23, D38. -/
def Obligations.SiliconIdReadoutDelivers : Prop :=
  ∀ (s : State) (cart dram : Nat), s.WF → s.fault.flash = none → s.flash.mode = .readSiliconId →
    cart % 131072 = 0 →
    let index := fun i => (dram + i) ^^^ s.params.dramIndexXor
    ∃ t, exec (.flashDmaWrite cart dram 8) s = .next t ∧
      (∀ i, i < 4 → index i < s.dram.len →
        t.dram.read .dram (index i) = s.flash.siliconId0.extractLsb' (24 - 8 * i) 8) ∧
      (∀ i, i < 4 → index (4 + i) < s.dram.len →
        t.dram.read .dram (index (4 + i)) = s.flash.siliconId1.extractLsb' (24 - 8 * i) 8) ∧
      (∀ a, (∀ i, i < 8 → a ≠ index i) → t.dram.read .dram a = s.dram.read .dram a) ∧
      t.dram.len = s.dram.len ∧ t = { s with dram := t.dram }

/-- The array read completes: the masked 16-bit address, doubled for a chip of the remap set, is the base; store bytes
from there reach main memory, `0x00` beyond the store; only the lazy format touches the device (R146, R147). Choices:
D15 (the other chips' base), D17, D23, D38. -/
def Obligations.ArrayReadDeliversRemappedBytes : Prop :=
  ∀ (s : State) (cart dram len : Nat), s.WF → s.fault.flash = none → s.flash.mode = .readArray → len < 0x10000 →
    let index := fun i => (dram + i) ^^^ s.params.dramIndexXor
    let base := if s.flash.siliconId1 ∈ s.params.remapX2Ids then cart % 65536 * 2 else cart % 65536
    ∃ t, exec (.flashDmaWrite cart dram len) s = .next t ∧
      (∀ i, i < len → index i < s.dram.len →
        t.dram.read .dram (index i) = formattedRead .flash 131072 s.flash.store (base + i)) ∧
      (∀ a, (∀ i, i < len → a ≠ index i) → t.dram.read .dram a = s.dram.read .dram a) ∧
      t.dram.len = s.dram.len ∧
      t.flash.store.len = max s.flash.store.len 131072 ∧
      (∀ i, t.flash.store.read .flash i = formattedRead .flash 131072 s.flash.store i) ∧
      t = { s with dram := t.dram, flash := { s.flash with store := t.flash.store } }

/-- The life of the status bits (R18, R149, which the spec derives): no operation but `LoadState` and `DeviceReset`
clears a success bit or changes a bit other than the four named. -/
def Obligations.SuccessBitsAreSticky : Prop :=
  ∀ (i : Instr) (s t : State), paramsOk s.params = true → exec i s = .next t → i ≠ .deviceReset →
    (∀ f, i ≠ .loadState f) →
    (∀ b ∈ [s.params.eraseSuccessBit, s.params.programSuccessBit],
      s.flash.status.getLsbD b.val = true → t.flash.status.getLsbD b.val = true) ∧
    (∀ b : Fin 32, b ∉ [s.params.eraseSuccessBit, s.params.programSuccessBit, s.params.eraseBusyBit,
        s.params.programBusyBit] → t.flash.status.getLsbD b.val = s.flash.status.getLsbD b.val)

/-! ### SRAM -/

/-- `SramMmioRead` of an aligned address completes: it formats, returns the big-endian word at `addr & 0x7FFF`, and
does not set `written` (R161, R160). Choices: D22 (byte order), D24 (alignment), D27. -/
def Obligations.SramReadReturnsTheWord : Prop :=
  ∀ (s : State) (addr : Nat), s.WF → s.fault.sram = none → addr % 4 = 0 →
    let old := formattedRead .sram 32768 s.sram.store
    let a := addr % 32768
    ∃ t, exec (.sramMmioRead addr) s = .next t ∧
      t.out = s.out ++ [.returned (old a ++ (old (a + 1) ++ (old (a + 2) ++ old (a + 3))))] ∧
      t.sram.store.len = max s.sram.store.len 32768 ∧ (∀ i, t.sram.store.read .sram i = old i) ∧
      t = { s with sram := { s.sram with store := t.sram.store }, out := t.out }

/-- `SramMmioWrite` of an aligned address completes: each of the four bytes is merged under the mask, no other byte
changes, `written` is set (R162, R160). Choices: D22, D24, D25 (form of the mask). -/
def Obligations.SramWriteMergesUnderTheMask : Prop :=
  ∀ (s : State) (addr : Nat) (value mask : Word), s.WF → s.fault.sram = none → addr % 4 = 0 →
    let old := formattedRead .sram 32768 s.sram.store
    let a := addr % 32768
    ∃ t, exec (.sramMmioWrite addr value mask) s = .next t ∧
      t.sram.store.len = max s.sram.store.len 32768 ∧
      (∀ k, k < 4 → t.sram.store.read .sram (a + k) =
        (old (a + k) &&& ~~~(mask.extractLsb' (24 - 8 * k) 8)) |||
          (value.extractLsb' (24 - 8 * k) 8 &&& mask.extractLsb' (24 - 8 * k) 8)) ∧
      (∀ i, i < a ∨ a + 4 ≤ i → t.sram.store.read .sram i = old i) ∧
      t = { s with sram := ⟨t.sram.store, true⟩ }

/-- A misaligned SRAM MMIO access is `F_SRAM_MISALIGNED`, with nothing else changed, no format either (R163, R160;
choice D24). -/
def Obligations.MisalignedSramAccessIsFatal : Prop :=
  ∀ (s : State) (addr : Nat) (value mask : Word), s.fault.sram = none → addr % 4 ≠ 0 →
    ∀ i ∈ [Instr.sramMmioRead addr, .sramMmioWrite addr value mask],
      ∃ t, exec i s = .next t ∧ FatalTaken .sramMisaligned (.addr addr) s t

/-- `SramDmaRead` completes: main-memory bytes go to the store, `0x00` for those beyond main memory, those beyond the
store are dropped, no other byte changes, `written` is set even for length 0 (R164, R48). Choices: D23, D26 (no
reduction of the offset), D38. -/
def Obligations.SramDmaReadStoresBytes : Prop :=
  ∀ (s : State) (cart dram len : Nat), s.WF → s.fault.sram = none →
    let index := fun i => (dram + i) ^^^ s.params.dramIndexXor
    ∃ t, exec (.sramDmaRead cart dram len) s = .next t ∧
      t.sram.store.len = max s.sram.store.len 32768 ∧
      (∀ i, i < len → cart + i < t.sram.store.len →
        t.sram.store.read .sram (cart + i) =
          if index i < s.dram.len then s.dram.read .dram (index i) else 0x00#8) ∧
      (∀ i, i < cart ∨ cart + len ≤ i → t.sram.store.read .sram i = formattedRead .sram 32768 s.sram.store i) ∧
      t = { s with sram := ⟨t.sram.store, true⟩ }

/-- `SramDmaWrite` completes: store bytes reach main memory, `0x00` for those beyond the store, those beyond main
memory are dropped, no other byte changes, `written` is not set (R165, R48). Choices: D23, D26, D38. -/
def Obligations.SramDmaWriteDeliversBytes : Prop :=
  ∀ (s : State) (cart dram len : Nat), s.WF → s.fault.sram = none →
    let index := fun i => (dram + i) ^^^ s.params.dramIndexXor
    ∃ t, exec (.sramDmaWrite cart dram len) s = .next t ∧
      (∀ i, i < len → index i < s.dram.len →
        t.dram.read .dram (index i) = formattedRead .sram 32768 s.sram.store (cart + i)) ∧
      (∀ a, (∀ i, i < len → a ≠ index i) → t.dram.read .dram a = s.dram.read .dram a) ∧
      t.dram.len = s.dram.len ∧
      t.sram.store.len = max s.sram.store.len 32768 ∧
      (∀ i, t.sram.store.read .sram i = formattedRead .sram 32768 s.sram.store i) ∧
      t = { s with dram := t.dram, sram := { s.sram with store := t.sram.store } }

/-! ### VRU -/

/-- "When no UI is attached, this call never blocks", and "with netplay on, `VRU_READ` always yields `0x7FFF`, whatever
UI exists" (R187): it completes with that index and no prompt. The frame in which it completes, one transmit byte and
the response length, is the model's choice (log 19, 36). -/
def Obligations.VruReadWithoutUiAnswersNoMatch : Prop :=
  ∀ (s : State) (c : Channel) (tx r : Nat), FrameReady .vru c tx r 1 s.params.vruReadLen s →
    (s.ui.attached = false ∨ s.params.netplay = true) →
    ∃ t, exec (.vruRead c tx (some r)) s = .next t ∧ t.out = s.out ++ [.vruIndex 0x7FFF]

/-- `VRU_READ` completes: with a UI the word list is handed to the prompt, and the result is the place of the chosen
word (counted from 0, log 34) or `0x7FFF` for the empty string (R179). Choices: the response bytes, `words` and
`status` are free, and `voice_state` keeps its value (R178, log 17); nothing else changes. The frame checked is the
model's choice (log 19, 36). -/
def Obligations.VruReadAnswersTheChosenIndex : Prop :=
  ∀ (s : State) (c : Channel) (tx r : Nat), s.WF → FrameReady .vru c tx r 1 s.params.vruReadLen s →
    ∃ t, exec (.vruRead c tx (some r)) s = .next t ∧
      (s.ui.attached = true → s.params.netplay = false → s.ui.choice = "" →
        t.out = s.out ++ [.vruPrompt s.vru.words, .vruIndex 0x7FFF]) ∧
      (∀ n, s.ui.attached = true → s.params.netplay = false → s.ui.choice ≠ "" →
        s.vru.words[n]? = some s.ui.choice → (∀ m, m < n → s.vru.words[m]? ≠ some s.ui.choice) →
        t.out = s.out ++ [.vruPrompt s.vru.words, .vruIndex n]) ∧
      PifUnchangedOutside r s.params.vruReadLen s t ∧
      t = { s with
        pif := t.pif, out := t.out, draws := s.draws + 1,
        vru := { s.vru with words := t.vru.words, status := t.vru.status } }

/-- `VRU_READ_STATUS` (R181): when words are pending one decoded word is appended, on a Japan or demo ROM always, else
if the dictionary has the code; an unmapped code is fatal and changes nothing else (R189). Pendingness, the decoding
and the response bytes are free (log 18); the frame checked is the model's choice (log 19, 36). -/
def Obligations.VruReadStatusDecodesPendingWords : Prop :=
  ∀ (s : State) (c : Channel) (tx r : Nat), s.WF → FrameReady .vru c tx r 1 s.params.vruReadStatusLen s →
    let code := Config.vruHexCode s.vru.wordBuffer
    let completes := fun words => ∃ t, exec (.vruReadStatus c tx (some r)) s = .next t ∧
      PifUnchangedOutside r s.params.vruReadStatusLen s t ∧
      t = { s with pif := t.pif, vru := { s.vru with words := words }, draws := s.draws + 1 }
    ((s.params.romRegion = 0x4A#8 ∨ s.params.romRegion = 0x00#8) →
      completes (if Config.vruWordsPending s.draws = true then
        s.vru.words ++ [Config.vruText s.vru.wordBuffer] else s.vru.words)) ∧
    (s.params.romRegion ≠ 0x4A#8 → s.params.romRegion ≠ 0x00#8 →
      (Config.vruWordsPending s.draws = false → completes s.vru.words) ∧
      (Config.vruWordsPending s.draws = true →
        (∀ w, s.params.wordMappings.lookup code = some w → completes (s.vru.words ++ [w])) ∧
        (s.params.wordMappings.lookup code = none →
          ∃ t, exec (.vruReadStatus c tx (some r)) s = .next t ∧ FatalTaken .vruUnmappedWord (.code code) s t)))

/-- `VRU_WRITE_CONFIG` completes (R184): by the CRC of the window, `0x4E` sets `talking`, arms the timeout and moves
`Start` to `Busy` on the edge (R183), `0xEF` clears both and moves `Busy` to `Ready` on the edge (R185), any other
value leaves `talking` alone and at most clears the words. Choices: D31 (edges), D37 (re-arming); the window and the
response length are parameters, the response bytes free (log 19); the transmit part checked is the code byte (log
36). -/
def Obligations.VruWriteConfigSwitchesTalking : Prop :=
  ∀ (s : State) (c : Channel) (tx r : Nat), s.WF → FrameReady .vru c tx r 1 s.params.vruWriteConfigLen s →
    vruWindowStart s.params tx + 4 ≤ s.pif.len →
    let k := crcBytes ((List.range 4).map (fun n => s.pifByte (vruWindowStart s.params tx + n)))
    ∃ t, exec (.vruWriteConfig c tx (some r)) s = .next t ∧
      (k = 0x4E#8 → t.vru = { s.vru with
          talking := true
          voiceState := if s.vru.talking = false ∧ s.vru.voiceState = .start then .busy else s.vru.voiceState } ∧
        t.events = { s.events with vruTimeout := some (s.now + 2 * s.params.clockRate) }) ∧
      (k = 0xEF#8 → t.vru = { s.vru with
          talking := false
          voiceState := if s.vru.talking = true ∧ s.vru.voiceState = .busy then .ready else s.vru.voiceState } ∧
        t.events = { s.events with vruTimeout := none }) ∧
      (k ≠ 0x4E#8 → k ≠ 0xEF#8 → (t.vru = s.vru ∨ t.vru = { s.vru with words := [] }) ∧ t.events = s.events) ∧
      PifUnchangedOutside r s.params.vruWriteConfigLen s t ∧
      t = { s with pif := t.pif, vru := t.vru, events := t.events, draws := s.draws + 1 }

/-- `VRU_WRITE` and `VRU_WRITE_INIT` have no step on a VRU channel: "Settled: the code and the name only" (R180,
R188). -/
def Obligations.VruCommandsWithoutEffectAreRefused : Prop :=
  ∀ (s : State) (c : Channel) (tx : Nat) (rx : Option Nat), s.fault.pif = none → s.fault.vru = none →
    s.device c = .vru →
    exec (.vruWrite c tx rx) s = .refused .vruWriteOpen ∧
    exec (.vruWriteInit c tx rx) s = .refused .vruWriteInitOpen

/-- `VruTimeoutEvent` completes while pending: it is consumed, `talking` is cleared and `Busy` goes to `Ready` on the
edge (R186, R185). -/
def Obligations.VruTimeoutClearsTalking : Prop :=
  ∀ (s : State) (n : Nat), s.fault.vru = none → s.events.vruTimeout = some n →
    exec .vruTimeoutEvent s = .next { s with
      events := { s.events with vruTimeout := none }
      vru := { s.vru with
        talking := false
        voiceState := if s.vru.talking = true ∧ s.vru.voiceState = .busy then .ready else s.vru.voiceState } }

/-! ### Platform, faults, whole-machine rules -/

/-- `DeviceReset` completes from every state, latched or not, with the table of 10_state.md section 8. Choices: D13,
D27 (`written` false), D28, D31, D34; what it takes over from the storage collaborator (log 8); PIF RAM, the pak state
and the open VRU fields are free (log 5, 9, 21). -/
def Obligations.DeviceResetRestoresTheTable : Prop :=
  ∀ s : State, ∃ t, exec .deviceReset s = .next t ∧
    t.fault = ⟨none, none, none, none⟩ ∧ t.events = ⟨none, none⟩ ∧ t.chan = Quad.all ⟨none, none⟩ ∧
    t.pif.len = s.pif.len ∧
    (∃ store, t.flash = ⟨0#32, .readArray, 0#16, List.replicate 128 0x00#8, s.params.siliconId0,
        s.params.siliconId1, store, false⟩ ∧
      (s.handover.flash = none → store = s.flash.store) ∧ (∀ m, s.handover.flash = some m → store = m)) ∧
    (s.handover.sram = none → t.sram = ⟨s.sram.store, false⟩) ∧ (∀ m, s.handover.sram = some m → t.sram = ⟨m, false⟩) ∧
    t.vru.voiceState = (if s.params.romRegion = 0x4A#8 ∨ s.params.romRegion = 0x00#8 then .ready else .start) ∧
    t.vru.talking = false ∧ t.vru.words = [] ∧ t.vru.wordBuffer.length = 40 ∧
    t.params = s.params ∧ t.dram = s.dram ∧ t.now = s.now ∧ t.ui = s.ui ∧ t.inbox = s.inbox ∧ t.out = s.out ∧
    t.handover = ⟨none, none⟩

/-- `LoadState` completes for a well-typed operand: it overwrites exactly the persisted fields and the kind tags (R231,
choice D35); an ill-typed operand breaks a premise and stops (log 23). -/
def Obligations.LoadStateOverwritesThePersistedFields : Prop :=
  ∀ (s : State) (f : Saved), s.fault.pif = none → s.fault.flash = none → s.fault.vru = none →
    (f.flashPageBuf.length = 128 → f.vruWordBuffer.length = 40 →
      ∃ t, exec (.loadState f) s = .next t ∧
        t.flash = ⟨f.flashStatus, f.flashMode, f.flashErasePage, f.flashPageBuf, f.flashSiliconId0,
          f.flashSiliconId1, s.flash.store, s.flash.written⟩ ∧
        t.vru = ⟨f.vruStatus, f.vruVoiceState, f.vruLoadOffset, f.vruVoiceInit, f.vruWordBuffer, f.vruWords,
          f.vruTalking⟩ ∧
        (∀ c, t.chan.get c = ⟨f.kinds.get c, (s.chan.get c).changePak⟩) ∧
        t = { s with flash := t.flash, vru := t.vru, chan := t.chan }) ∧
    ((f.flashPageBuf.length ≠ 128 ∨ f.vruWordBuffer.length ≠ 40) → exec (.loadState f) s = .fault .illTypedLoad)

/-- The latches are sticky: no operation but `DeviceReset` clears or replaces one (R196, choice D28). -/
def Obligations.LatchesAreSticky : Prop :=
  ∀ (i : Instr) (s t : State) (sub : Subsystem) (k : FatalKind), exec i s = .next t → i ≠ .deviceReset →
    latchOf s.fault sub = some k → latchOf t.fault sub = some k

/-- Fatals are precise: an operation after which a latch differs has changed nothing else and has told the host (R195,
choice D28). -/
def Obligations.FatalsArePrecise : Prop :=
  ∀ (i : Instr) (s t : State), exec i s = .next t → i ≠ .deviceReset → t.fault ≠ s.fault →
    ∃ k info, FatalTaken k info s t

/-- Operations that have no step: those addressed to a latched subsystem (R196, choice D28; which operation is
addressed to which, a frame on a `Vru` channel to `pif` and to `vru`, `LoadState` to three, is log 28), and an event
that is not pending (R118, R186). -/
def Obligations.LatchedOrUnarmedOperationsHaveNoStep : Prop :=
  (∀ (s : State) (k : FatalKind) (addr cart dram len : Nat) (a : Half) (value mask : Word),
    s.fault.flash = some k →
    ∀ i ∈ [Instr.flChipEraseMode, .flSectorEraseMode a, .flEraseExecute, .flProgramExecute a, .flPageProgramMode,
        .flStatusMode, .flReadSiliconIdMode, .flReadArrayMode, .flashMmioRead addr,
        .flashMmioWrite addr value mask, .flashDmaRead cart dram len, .flashDmaWrite cart dram len],
      exec i s = .refused (.halted .flash)) ∧
  (∀ (s : State) (k : FatalKind) (addr cart dram len : Nat) (value mask : Word), s.fault.sram = some k →
    ∀ i ∈ [Instr.sramMmioRead addr, .sramMmioWrite addr value mask, .sramDmaRead cart dram len,
        .sramDmaWrite cart dram len],
      exec i s = .refused (.halted .sram)) ∧
  (∀ (s : State) (k : FatalKind) (c : Channel) (kind : PakKind) (tx : Nat) (rx : Option Nat),
    s.fault.pif = some k →
    ∀ i ∈ [Instr.status c tx rx, .controllerRead c tx rx, .pakRead c tx rx, .pakWrite c tx rx, .reset c tx rx,
        .vruRead c tx rx, .vruWrite c tx rx, .vruReadStatus c tx rx, .vruWriteConfig c tx rx,
        .vruWriteInit c tx rx, .pakSwitchEvent, .installPak c kind],
      exec i s = .refused (.halted .pif)) ∧
  (∀ (s : State) (k : FatalKind), s.fault.vru = some k → exec .vruTimeoutEvent s = .refused (.halted .vru)) ∧
  (∀ (s : State) (k : FatalKind) (c : Channel) (tx : Nat) (rx : Option Nat),
    s.fault.pif = none → s.fault.vru = some k → s.device c = .vru →
    ∀ i ∈ [Instr.status c tx rx, .controllerRead c tx rx, .pakRead c tx rx, .pakWrite c tx rx, .reset c tx rx,
        .vruRead c tx rx, .vruWrite c tx rx, .vruReadStatus c tx rx, .vruWriteConfig c tx rx,
        .vruWriteInit c tx rx],
      exec i s = .refused (.halted .vru)) ∧
  (∀ (s : State) (k : FatalKind) (f : Saved),
    (s.fault.pif = some k → exec (.loadState f) s = .refused (.halted .pif)) ∧
    (s.fault.pif = none → s.fault.flash = some k → exec (.loadState f) s = .refused (.halted .flash)) ∧
    (s.fault.pif = none → s.fault.flash = none → s.fault.vru = some k →
      exec (.loadState f) s = .refused (.halted .vru))) ∧
  (∀ s : State, s.fault.pif = none → s.events.pakSwitch = none →
    exec .pakSwitchEvent s = .refused (.eventNotPending .pakSwitch)) ∧
  (∀ s : State, s.fault.vru = none → s.events.vruTimeout = none →
    exec .vruTimeoutEvent s = .refused (.eventNotPending .vruTimeout))

/-- What no operation changes: the parameters, `now`, the UI's answers, the inputs to come, the sizes of PIF RAM and
main memory; no store shrinks but by a `DeviceReset` that takes over a new one (R32, R160); no operation but
`DeviceReset` clears a `written` flag (R23, R24). -/
def Obligations.OperationsLeaveTheOutsideWorld : Prop :=
  ∀ (i : Instr) (s t : State), exec i s = .next t →
    t.params = s.params ∧ t.now = s.now ∧ t.ui = s.ui ∧ t.inbox = s.inbox ∧ t.pif.len = s.pif.len ∧
    t.dram.len = s.dram.len ∧
    (i ≠ .deviceReset →
      s.flash.store.len ≤ t.flash.store.len ∧ s.sram.store.len ≤ t.sram.store.len ∧
      (s.flash.written = true → t.flash.written = true) ∧ (s.sram.written = true → t.sram.written = true))

/-- `flash.mode` is "written only by FlashRAM commands" (R19): any operation after which it differs is one of the
eight, the write that carries one, `DeviceReset` or `LoadState`. -/
def Obligations.OnlyFlashCommandsChangeTheMode : Prop :=
  ∀ (i : Instr) (s t : State), exec i s = .next t → t.flash.mode ≠ s.flash.mode →
    (∃ w, decode (.flcmd w) = .ok i) ∨
    (∃ addr value, i = .flashMmioWrite addr value 0xFFFFFFFF#32 ∧ addr % 131072 = 0x10000) ∨
    i = .deviceReset ∨ ∃ f, i = .loadState f

/-! ### CRC-8 and memory -/

/-- "Property: an all-zero input of any length yields `0x00`" (R84): of a byte sequence, and of any run of zero bytes of
a memory, the empty one too. -/
def Obligations.CrcOfZerosIsZero : Prop :=
  (∀ n : Nat, crcBytes (List.replicate n 0x00#8) = 0x00#8) ∧
  ∀ (sp : Space) (m : Memory) (off n : Nat), (∀ k, k < n → m.read sp (off + k) = 0x00#8) →
    crc8 sp m off n = 0x00#8

/-- `crc8` with its flush round equals the ordinary form without one (R83, which the spec derives): "for each data byte
b: r <- r ^ b; repeat 8 times: r <- trunc_8(r << 1) ^ (0x85 if the old r[7] else 0)". -/
def Obligations.CrcEqualsTheDirectForm : Prop :=
  ∀ bs : List Byte, crcBytes bs =
    bs.foldl (fun (r b : Byte) => (List.range 8).foldl
      (fun (r : Byte) _ => (r <<< 1) ^^^ (if r &&& 0x80#8 ≠ 0#8 then 0x85#8 else 0x00#8)) (r ^^^ b)) 0x00#8

/-- Equal memories are equal data: two canonical memories of a space with the same length and the same bytes are one.
The canonical form is the model's choice (log 30). -/
def Obligations.CanonicalMemoriesAreExtensional : Prop :=
  ∀ (sp : Space) (m n : Memory), m.wf sp = true → n.wf sp = true → m.len = n.len →
    (∀ i, i < m.len → m.read sp i = n.read sp i) → m = n
end

