-- ==== Sys2Proof/Laws/Memory.lean ====
section
/-! SUPPORT. The laws of byte memories: read after write, what each operation leaves alone, and that each keeps the
canonical form. -/

namespace Sys2Proof.Machine

/-! ### Cell lists -/

theorem cellsOk_cons {blank : Byte} {len lo a : Nat} {v : Byte} {rest : List Host.Cell} :
    cellsOk blank len lo ((a, v) :: rest) = true ↔
      lo ≤ a ∧ a < len ∧ v ≠ blank ∧ cellsOk blank len (a + 1) rest = true := by
  simp [cellsOk, and_assoc]

theorem cellsOk_weaken {blank : Byte} {len len' : Nat} (hl : len ≤ len') {cs : List Host.Cell} {lo lo' : Nat}
    (ho : lo' ≤ lo) (h : cellsOk blank len lo cs = true) : cellsOk blank len' lo' cs = true := by
  induction cs generalizing lo lo' with
  | nil => rfl
  | cons c rest ih =>
    obtain ⟨a, v⟩ := c
    rw [cellsOk_cons] at h ⊢
    exact ⟨by omega, by omega, h.2.2.1, ih (Nat.le_refl _) h.2.2.2⟩

theorem cellsGet_below {blank : Byte} {len : Nat} {cs : List Host.Cell} {lo a : Nat}
    (h : cellsOk blank len lo cs = true) (ha : a < lo) : cellsGet blank cs a = blank := by
  induction cs generalizing lo with
  | nil => rfl
  | cons c rest ih =>
    obtain ⟨b, w⟩ := c
    rw [cellsOk_cons] at h
    rw [cellsGet, if_neg (by omega)]
    exact ih h.2.2.2 (by omega)

theorem cellsOk_put {blank : Byte} {len : Nat} {cs : List Host.Cell} {lo a : Nat} {v : Byte}
    (h : cellsOk blank len lo cs = true) (hlo : lo ≤ a) (ha : a < len) :
    cellsOk blank len lo (cellsPut blank cs a v) = true := by
  induction cs generalizing lo with
  | nil =>
    by_cases hv : v = blank
    · simp [cellsPut, hv, cellsOk]
    · simp [cellsPut, hv, cellsOk, hlo, ha]
  | cons c rest ih =>
    obtain ⟨b, w⟩ := c
    have hc := h
    rw [cellsOk_cons] at hc
    obtain ⟨h1, h2, h3, h4⟩ := hc
    unfold cellsPut
    by_cases hab : a < b
    · rw [if_pos hab]
      by_cases hv : v = blank
      · rwa [if_pos hv]
      · rw [if_neg hv, cellsOk_cons, cellsOk_cons]
        exact ⟨hlo, ha, hv, by omega, h2, h3, h4⟩
    · rw [if_neg hab]
      by_cases he : a = b
      · rw [if_pos he]
        by_cases hv : v = blank
        · rw [if_pos hv]
          exact cellsOk_weaken (Nat.le_refl _) (by omega) h4
        · rw [if_neg hv, cellsOk_cons]
          exact ⟨hlo, ha, hv, he ▸ h4⟩
      · rw [if_neg he, cellsOk_cons]
        exact ⟨h1, h2, h3, ih h4 (by omega)⟩

theorem cellsGet_put {blank : Byte} {len : Nat} {cs : List Host.Cell} {lo a : Nat} {v : Byte} (j : Nat)
    (h : cellsOk blank len lo cs = true) :
    cellsGet blank (cellsPut blank cs a v) j = if j = a then v else cellsGet blank cs j := by
  induction cs generalizing lo with
  | nil => by_cases hv : v = blank <;> by_cases hj : j = a <;> simp [cellsPut, cellsGet, hv, hj]
  | cons c rest ih =>
    obtain ⟨b, w⟩ := c
    have hc := h
    rw [cellsOk_cons] at hc
    obtain ⟨-, -, -, h4⟩ := hc
    unfold cellsPut
    by_cases hab : a < b
    · rw [if_pos hab]
      by_cases hv : v = blank
      · rw [if_pos hv]
        by_cases hj : j = a
        · have hn : cellsGet blank ((b, w) :: rest) j = blank := by
            rw [cellsGet, if_neg (by omega)]
            exact cellsGet_below h4 (by omega)
          rw [hn, if_pos hj, hv]
        · rw [if_neg hj]
      · rw [if_neg hv]; simp only [cellsGet]
    · rw [if_neg hab]
      by_cases he : a = b
      · rw [if_pos he]
        by_cases hv : v = blank
        · rw [if_pos hv]
          by_cases hj : j = a
          · rw [if_pos hj, hv]
            exact cellsGet_below h4 (by omega)
          · rw [if_neg hj, cellsGet, if_neg (by omega)]
        · rw [if_neg hv]
          by_cases hj : j = a
          · simp [cellsGet, hj]
          · simp only [cellsGet]; rw [if_neg hj, if_neg hj, if_neg (by omega)]
      · rw [if_neg he]
        simp only [cellsGet]
        by_cases hj : j = b
        · rw [if_pos hj, if_pos hj, if_neg (by omega)]
        · rw [if_neg hj, if_neg hj]
          exact ih h4

theorem cellsOk_filter {blank : Byte} {len : Nat} (p : Host.Cell → Bool) {cs : List Host.Cell} {lo : Nat}
    (h : cellsOk blank len lo cs = true) : cellsOk blank len lo (cs.filter p) = true := by
  induction cs generalizing lo with
  | nil => rfl
  | cons c rest ih =>
    obtain ⟨a, v⟩ := c
    rw [cellsOk_cons] at h
    obtain ⟨h1, h2, h3, h4⟩ := h
    by_cases hp : p (a, v) = true
    · rw [List.filter_cons_of_pos hp, cellsOk_cons]
      exact ⟨h1, h2, h3, ih h4⟩
    · rw [List.filter_cons_of_neg hp]
      exact cellsOk_weaken (Nat.le_refl _) (by omega) (ih h4)

theorem cellsGet_filter_kept {blank : Byte} (p : Nat → Bool) (cs : List Host.Cell) (j : Nat) (hj : p j = true) :
    cellsGet blank (cs.filter (fun c => p c.1)) j = cellsGet blank cs j := by
  induction cs with
  | nil => rfl
  | cons c rest ih =>
    obtain ⟨a, v⟩ := c
    by_cases hp : p a = true
    · rw [List.filter_cons_of_pos (by simpa using hp), cellsGet, cellsGet, ih]
    · rw [List.filter_cons_of_neg (by simpa using hp), ih, cellsGet, if_neg]
      rintro rfl
      exact hp hj

theorem cellsGet_filter_removed {blank : Byte} (p : Nat → Bool) (cs : List Host.Cell) (j : Nat) (hj : p j = false) :
    cellsGet blank (cs.filter (fun c => p c.1)) j = blank := by
  induction cs with
  | nil => rfl
  | cons c rest ih =>
    obtain ⟨a, v⟩ := c
    by_cases hp : p a = true
    · rw [List.filter_cons_of_pos (by simpa using hp), cellsGet, if_neg, ih]
      rintro rfl
      simp [hj] at hp
    · rw [List.filter_cons_of_neg (by simpa using hp), ih]

/-! ### One byte -/

@[simp] theorem Memory.write_len (sp : Space) (m : Memory) (i : Nat) (v : Byte) : (m.write sp i v).len = m.len := by
  unfold Memory.write; split <;> rfl

theorem Memory.write_wf {sp : Space} {m : Memory} (h : m.wf sp = true) (i : Nat) (v : Byte) :
    (m.write sp i v).wf sp = true := by
  unfold Memory.write
  split
  · exact cellsOk_put h (Nat.zero_le _) ‹_›
  · exact h

/-- Read after write: the value at the written index, anything else as before; a write outside is dropped. -/
theorem Memory.read_write {sp : Space} {m : Memory} (h : m.wf sp = true) (i j : Nat) (v : Byte) :
    (m.write sp i v).read sp j = if j = i ∧ i < m.len then v else m.read sp j := by
  unfold Memory.write
  by_cases hi : i < m.len
  · rw [if_pos hi]
    unfold Memory.read
    by_cases hj : j < m.len
    · rw [if_pos hj, if_pos hj, cellsGet_put j h]
      simp [hi]
    · rw [if_neg hj, if_neg hj, if_neg (by omega)]
  · rw [if_neg hi, if_neg (by omega)]

theorem Memory.read_write_other (sp : Space) {m : Memory} (h : m.wf sp = true) {i j : Nat} (v : Byte) (hj : j ≠ i) :
    (m.write sp i v).read sp j = m.read sp j := by
  rw [Memory.read_write h, if_neg (fun hc => hj hc.1)]

theorem Memory.read_outside (sp : Space) {m : Memory} {i : Nat} (h : m.len ≤ i) : m.read sp i = 0x00#8 := by
  unfold Memory.read
  rw [if_neg (by omega)]

/-! ### Many bytes -/

@[simp] theorem Memory.writeAll_nil (sp : Space) (m : Memory) : m.writeAll sp [] = m := rfl

@[simp] theorem Memory.writeAll_cons (sp : Space) (m : Memory) (c : Host.Cell) (cs : List Host.Cell) :
    m.writeAll sp (c :: cs) = (m.write sp c.1 c.2).writeAll sp cs := rfl

@[simp] theorem Memory.writeAll_len (sp : Space) (m : Memory) (cs : List Host.Cell) :
    (m.writeAll sp cs).len = m.len := by
  induction cs generalizing m with
  | nil => rfl
  | cons c cs ih => simp [ih]

theorem Memory.writeAll_wf {sp : Space} {m : Memory} (h : m.wf sp = true) (cs : List Host.Cell) :
    (m.writeAll sp cs).wf sp = true := by
  induction cs generalizing m with
  | nil => exact h
  | cons c cs ih => exact ih (Memory.write_wf h _ _)

/-- Bytes whose index is not listed read as before. -/
theorem Memory.read_writeAll_other {sp : Space} {m : Memory} (h : m.wf sp = true) (cs : List Host.Cell) (j : Nat)
    (hj : ∀ c ∈ cs, c.1 ≠ j) : (m.writeAll sp cs).read sp j = m.read sp j := by
  induction cs generalizing m with
  | nil => rfl
  | cons c cs ih =>
    rw [Memory.writeAll_cons, ih (Memory.write_wf h _ _) (fun d hd => hj d (List.mem_cons_of_mem _ hd))]
    exact Memory.read_write_other sp h _ (fun e => hj c List.mem_cons_self e.symm)

@[simp] theorem Memory.writeBytes_len (sp : Space) (m : Memory) (off : Nat) (bs : List Byte) :
    (m.writeBytes sp off bs).len = m.len := Memory.writeAll_len ..

theorem Memory.writeBytes_wf {sp : Space} {m : Memory} (h : m.wf sp = true) (off : Nat) (bs : List Byte) :
    (m.writeBytes sp off bs).wf sp = true := Memory.writeAll_wf h _

theorem cellsFrom_mem_range {off : Nat} {bs : List Byte} {c : Host.Cell} (h : c ∈ cellsFrom off bs) :
    off ≤ c.1 ∧ c.1 < off + bs.length := by
  induction bs generalizing off with
  | nil => cases h
  | cons b bs ih =>
    rcases List.mem_cons.mp h with rfl | h
    · simp
    · have := ih h
      simp only [List.length_cons]
      omega

/-- A byte run lays `bs[k]` at `off + k` as far as the memory reaches, and leaves every other byte alone. -/
theorem Memory.read_writeBytes {sp : Space} {m : Memory} (h : m.wf sp = true) (off j : Nat) (bs : List Byte) :
    (m.writeBytes sp off bs).read sp j =
      if off ≤ j ∧ j < off + bs.length ∧ j < m.len then bs.getD (j - off) 0x00#8 else m.read sp j := by
  induction bs generalizing m off with
  | nil => rw [if_neg (by simp only [List.length_nil]; omega)]; rfl
  | cons b bs ih =>
    have hstep : m.writeBytes sp off (b :: bs) = (m.write sp off b).writeBytes sp (off + 1) bs := rfl
    rw [hstep, ih (Memory.write_wf h _ _), Memory.read_write h, Memory.write_len]
    simp only [List.length_cons]
    by_cases h1 : off + 1 ≤ j ∧ j < off + 1 + bs.length ∧ j < m.len
    · rw [if_pos h1, if_pos (by omega)]
      have : j - off = (j - (off + 1)) + 1 := by omega
      rw [this, List.getD_cons_succ]
    · rw [if_neg h1]
      by_cases h2 : j = off ∧ off < m.len
      · rw [if_pos h2, if_pos (by omega), h2.1]
        simp
      · rw [if_neg h2, if_neg (by omega)]

theorem Memory.read_writeBytes_other {sp : Space} {m : Memory} (h : m.wf sp = true) {off j : Nat} (bs : List Byte)
    (hj : j < off ∨ off + bs.length ≤ j) : (m.writeBytes sp off bs).read sp j = m.read sp j := by
  rw [Memory.read_writeBytes h, if_neg (by omega)]

@[simp] theorem Memory.bytes_length (sp : Space) (m : Memory) (off n : Nat) : (m.bytes sp off n).length = n := by
  simp [Memory.bytes]

theorem Memory.bytes_getD (sp : Space) (m : Memory) {off n k : Nat} (h : k < n) :
    (m.bytes sp off n).getD k 0x00#8 = m.read sp (off + k) := by
  simp [Memory.bytes, List.getD, h]

theorem Memory.bytes_congr {sp : Space} {m m' : Memory} {off n : Nat}
    (h : ∀ k, k < n → m.read sp (off + k) = m'.read sp (off + k)) : m.bytes sp off n = m'.bytes sp off n := by
  unfold Memory.bytes
  exact List.map_congr_left (fun k hk => h k (List.mem_range.mp hk))

/-! ### Format and erase -/

@[simp] theorem Memory.format_len (n : Nat) (m : Memory) : (m.format n).len = max m.len n := rfl

theorem Memory.format_wf {sp : Space} {m : Memory} (n : Nat) (h : m.wf sp = true) : (m.format n).wf sp = true :=
  cellsOk_weaken (Nat.le_max_left _ _) (Nat.le_refl _) h

theorem cellsGet_above {blank : Byte} {len : Nat} {cs : List Host.Cell} {lo a : Nat}
    (h : cellsOk blank len lo cs = true) (ha : len ≤ a) : cellsGet blank cs a = blank := by
  induction cs generalizing lo with
  | nil => rfl
  | cons c rest ih =>
    obtain ⟨b, w⟩ := c
    rw [cellsOk_cons] at h
    rw [cellsGet, if_neg (by omega)]
    exact ih h.2.2.2

/-- The lazy format keeps the old bytes and gives the new ones the blank value (20_memory.md R50). -/
theorem Memory.read_format {sp : Space} {m : Memory} (n j : Nat) (h : m.wf sp = true) :
    (m.format n).read sp j = if j < m.len then m.read sp j else if j < n then sp.blank else 0x00#8 := by
  unfold Memory.read Memory.format
  by_cases h1 : j < m.len
  · rw [if_pos (by simp only; omega), if_pos h1, if_pos h1]
  · rw [if_neg h1]
    by_cases h2 : j < n
    · rw [if_pos (by simp only; omega), if_pos h2]
      exact cellsGet_above h (by omega)
    · rw [if_neg (by simp only; omega), if_neg h2]

/-- A store of full size is not changed by the format. -/
theorem Memory.format_of_le {m : Memory} {n : Nat} (h : n ≤ m.len) : m.format n = m := by
  unfold Memory.format
  rw [Nat.max_eq_left h]

@[simp] theorem Memory.erase_len (lo n : Nat) (m : Memory) : (m.erase lo n).len = m.len := rfl

theorem Memory.erase_wf {sp : Space} {m : Memory} (lo n : Nat) (h : m.wf sp = true) :
    (m.erase lo n).wf sp = true := cellsOk_filter _ h

/-- Erase sets the bytes of its range to the blank value and leaves every other byte alone. -/
theorem Memory.read_erase (sp : Space) (m : Memory) (lo n j : Nat) :
    (m.erase lo n).read sp j = if lo ≤ j ∧ j < lo + n ∧ j < m.len then sp.blank else m.read sp j := by
  unfold Memory.read Memory.erase
  simp only
  by_cases hl : j < m.len
  · rw [if_pos hl, if_pos hl]
    by_cases hj : lo ≤ j ∧ j < lo + n
    · rw [if_pos ⟨hj.1, hj.2, hl⟩]
      exact cellsGet_filter_removed (fun a => decide (a < lo) || decide (lo + n ≤ a)) _ _ (by simp; omega)
    · rw [if_neg (by omega)]
      exact cellsGet_filter_kept (fun a => decide (a < lo) || decide (lo + n ≤ a)) _ _ (by simp; omega)
  · rw [if_neg hl, if_neg hl, if_neg (by omega)]

theorem Memory.blankOf_wf (sp : Space) (n : Nat) : (Memory.blankOf n).wf sp = true := rfl

end Sys2Proof.Machine
end

