-- ==== Sys2Proof/Laws/Crc.lean ====
section
/-! SUPPORT. Small laws of the CRC-8 generator. -/

namespace Sys2Proof.Machine

@[simp] theorem crcRound_zero : crcRound 0x00#8 0x00#8 = 0x00#8 := by decide

theorem crcBytes_nil : crcBytes [] = 0x00#8 := crcRound_zero

/-- Leading zero bytes do not change the result (40_crc8.md R85 c). -/
theorem crcBytes_zero_cons (bs : List Byte) : crcBytes (0x00#8 :: bs) = crcBytes bs := by
  simp [crcBytes]

/-- The result depends only on the bytes of the range (40_crc8.md R85 d). -/
theorem crc8_congr {sp : Space} {m m' : Memory} {off size : Nat}
    (h : ∀ k, k < size → m.read sp (off + k) = m'.read sp (off + k)) : crc8 sp m off size = crc8 sp m' off size := by
  unfold crc8
  rw [Memory.bytes_congr h]

end Sys2Proof.Machine
end

