-- ==== Sys2Proof/Laws/Encoding.lean ====
section
/-! SUPPORT. The fields of an encoded FlashRAM command word. -/

namespace Sys2Proof

@[simp] theorem flOpcode_flWord (op : Byte) (a : Half) : flOpcode (flWord op a) = op := by
  unfold flOpcode flWord
  apply BitVec.eq_of_getLsbD_eq
  intro i hi
  simp only [BitVec.getLsbD_extractLsb', BitVec.getLsbD_append]
  have h1 : ¬ (24 + i < 8 + 16) := by omega
  simp [hi, h1]

@[simp] theorem flWord_mid (op : Byte) (a : Half) : (flWord op a).extractLsb' 16 8 = 0#8 := by
  unfold flWord
  apply BitVec.eq_of_getLsbD_eq
  intro i hi
  simp only [BitVec.getLsbD_extractLsb', BitVec.getLsbD_append]
  simp [hi]
  omega

@[simp] theorem flArg16_flWord (op : Byte) (a : Half) : flArg16 (flWord op a) = a := by
  unfold flArg16 flWord
  apply BitVec.eq_of_getLsbD_eq
  intro i hi
  simp only [BitVec.getLsbD_extractLsb', BitVec.getLsbD_append]
  have h1 : i < 8 + 16 := by omega
  simp [hi, h1]

end Sys2Proof
end

