-- ==== Sys2Proof/Laws/State.lean ====
section
/-! SUPPORT. What each named update of the state does to each field, and the laws of `Quad`. -/

namespace Sys2Proof

@[simp] theorem Quad.get_all {α : Type} (a : α) (c : Channel) : (Quad.all a).get c = a := by
  match c with | 0 | 1 | 2 | 3 => rfl

@[simp] theorem Quad.get_set_same {α : Type} (q : Quad α) (c : Channel) (a : α) : (q.set c a).get c = a := by
  match c with | 0 | 1 | 2 | 3 => rfl

theorem Quad.get_set_other {α : Type} (q : Quad α) {c d : Channel} (a : α) (h : d ≠ c) :
    (q.set c a).get d = q.get d := by
  fin_cases c <;> fin_cases d <;> first | rfl | exact absurd rfl h

end Sys2Proof

namespace Sys2Proof.Machine.State

@[simp] theorem setPif_params (s : State) (m : Memory) : (s.setPif m).params = s.params := rfl
@[simp] theorem setPif_pif (s : State) (m : Memory) : (s.setPif m).pif = m := rfl
@[simp] theorem setPif_chan (s : State) (m : Memory) : (s.setPif m).chan = s.chan := rfl
@[simp] theorem setPif_pakState (s : State) (m : Memory) : (s.setPif m).pakState = s.pakState := rfl
@[simp] theorem setPif_flash (s : State) (m : Memory) : (s.setPif m).flash = s.flash := rfl
@[simp] theorem setPif_sram (s : State) (m : Memory) : (s.setPif m).sram = s.sram := rfl
@[simp] theorem setPif_vru (s : State) (m : Memory) : (s.setPif m).vru = s.vru := rfl
@[simp] theorem setPif_events (s : State) (m : Memory) : (s.setPif m).events = s.events := rfl
@[simp] theorem setPif_now (s : State) (m : Memory) : (s.setPif m).now = s.now := rfl
@[simp] theorem setPif_fault (s : State) (m : Memory) : (s.setPif m).fault = s.fault := rfl
@[simp] theorem setPif_dram (s : State) (m : Memory) : (s.setPif m).dram = s.dram := rfl
@[simp] theorem setPif_ui (s : State) (m : Memory) : (s.setPif m).ui = s.ui := rfl
@[simp] theorem setPif_handover (s : State) (m : Memory) : (s.setPif m).handover = s.handover := rfl
@[simp] theorem setPif_inbox (s : State) (m : Memory) : (s.setPif m).inbox = s.inbox := rfl
@[simp] theorem setPif_out (s : State) (m : Memory) : (s.setPif m).out = s.out := rfl
@[simp] theorem setPif_draws (s : State) (m : Memory) : (s.setPif m).draws = s.draws := rfl

@[simp] theorem setDram_params (s : State) (m : Memory) : (s.setDram m).params = s.params := rfl
@[simp] theorem setDram_pif (s : State) (m : Memory) : (s.setDram m).pif = s.pif := rfl
@[simp] theorem setDram_chan (s : State) (m : Memory) : (s.setDram m).chan = s.chan := rfl
@[simp] theorem setDram_pakState (s : State) (m : Memory) : (s.setDram m).pakState = s.pakState := rfl
@[simp] theorem setDram_flash (s : State) (m : Memory) : (s.setDram m).flash = s.flash := rfl
@[simp] theorem setDram_sram (s : State) (m : Memory) : (s.setDram m).sram = s.sram := rfl
@[simp] theorem setDram_vru (s : State) (m : Memory) : (s.setDram m).vru = s.vru := rfl
@[simp] theorem setDram_events (s : State) (m : Memory) : (s.setDram m).events = s.events := rfl
@[simp] theorem setDram_now (s : State) (m : Memory) : (s.setDram m).now = s.now := rfl
@[simp] theorem setDram_fault (s : State) (m : Memory) : (s.setDram m).fault = s.fault := rfl
@[simp] theorem setDram_dram (s : State) (m : Memory) : (s.setDram m).dram = m := rfl
@[simp] theorem setDram_ui (s : State) (m : Memory) : (s.setDram m).ui = s.ui := rfl
@[simp] theorem setDram_handover (s : State) (m : Memory) : (s.setDram m).handover = s.handover := rfl
@[simp] theorem setDram_inbox (s : State) (m : Memory) : (s.setDram m).inbox = s.inbox := rfl
@[simp] theorem setDram_out (s : State) (m : Memory) : (s.setDram m).out = s.out := rfl
@[simp] theorem setDram_draws (s : State) (m : Memory) : (s.setDram m).draws = s.draws := rfl

@[simp] theorem setFlash_params (s : State) (f : Flash) : (s.setFlash f).params = s.params := rfl
@[simp] theorem setFlash_pif (s : State) (f : Flash) : (s.setFlash f).pif = s.pif := rfl
@[simp] theorem setFlash_chan (s : State) (f : Flash) : (s.setFlash f).chan = s.chan := rfl
@[simp] theorem setFlash_pakState (s : State) (f : Flash) : (s.setFlash f).pakState = s.pakState := rfl
@[simp] theorem setFlash_flash (s : State) (f : Flash) : (s.setFlash f).flash = f := rfl
@[simp] theorem setFlash_sram (s : State) (f : Flash) : (s.setFlash f).sram = s.sram := rfl
@[simp] theorem setFlash_vru (s : State) (f : Flash) : (s.setFlash f).vru = s.vru := rfl
@[simp] theorem setFlash_events (s : State) (f : Flash) : (s.setFlash f).events = s.events := rfl
@[simp] theorem setFlash_now (s : State) (f : Flash) : (s.setFlash f).now = s.now := rfl
@[simp] theorem setFlash_fault (s : State) (f : Flash) : (s.setFlash f).fault = s.fault := rfl
@[simp] theorem setFlash_dram (s : State) (f : Flash) : (s.setFlash f).dram = s.dram := rfl
@[simp] theorem setFlash_ui (s : State) (f : Flash) : (s.setFlash f).ui = s.ui := rfl
@[simp] theorem setFlash_handover (s : State) (f : Flash) : (s.setFlash f).handover = s.handover := rfl
@[simp] theorem setFlash_inbox (s : State) (f : Flash) : (s.setFlash f).inbox = s.inbox := rfl
@[simp] theorem setFlash_out (s : State) (f : Flash) : (s.setFlash f).out = s.out := rfl
@[simp] theorem setFlash_draws (s : State) (f : Flash) : (s.setFlash f).draws = s.draws := rfl

@[simp] theorem setSram_params (s : State) (r : Sram) : (s.setSram r).params = s.params := rfl
@[simp] theorem setSram_pif (s : State) (r : Sram) : (s.setSram r).pif = s.pif := rfl
@[simp] theorem setSram_chan (s : State) (r : Sram) : (s.setSram r).chan = s.chan := rfl
@[simp] theorem setSram_pakState (s : State) (r : Sram) : (s.setSram r).pakState = s.pakState := rfl
@[simp] theorem setSram_flash (s : State) (r : Sram) : (s.setSram r).flash = s.flash := rfl
@[simp] theorem setSram_sram (s : State) (r : Sram) : (s.setSram r).sram = r := rfl
@[simp] theorem setSram_vru (s : State) (r : Sram) : (s.setSram r).vru = s.vru := rfl
@[simp] theorem setSram_events (s : State) (r : Sram) : (s.setSram r).events = s.events := rfl
@[simp] theorem setSram_now (s : State) (r : Sram) : (s.setSram r).now = s.now := rfl
@[simp] theorem setSram_fault (s : State) (r : Sram) : (s.setSram r).fault = s.fault := rfl
@[simp] theorem setSram_dram (s : State) (r : Sram) : (s.setSram r).dram = s.dram := rfl
@[simp] theorem setSram_ui (s : State) (r : Sram) : (s.setSram r).ui = s.ui := rfl
@[simp] theorem setSram_handover (s : State) (r : Sram) : (s.setSram r).handover = s.handover := rfl
@[simp] theorem setSram_inbox (s : State) (r : Sram) : (s.setSram r).inbox = s.inbox := rfl
@[simp] theorem setSram_out (s : State) (r : Sram) : (s.setSram r).out = s.out := rfl
@[simp] theorem setSram_draws (s : State) (r : Sram) : (s.setSram r).draws = s.draws := rfl

@[simp] theorem setVru_params (s : State) (v : Vru) : (s.setVru v).params = s.params := rfl
@[simp] theorem setVru_pif (s : State) (v : Vru) : (s.setVru v).pif = s.pif := rfl
@[simp] theorem setVru_chan (s : State) (v : Vru) : (s.setVru v).chan = s.chan := rfl
@[simp] theorem setVru_pakState (s : State) (v : Vru) : (s.setVru v).pakState = s.pakState := rfl
@[simp] theorem setVru_flash (s : State) (v : Vru) : (s.setVru v).flash = s.flash := rfl
@[simp] theorem setVru_sram (s : State) (v : Vru) : (s.setVru v).sram = s.sram := rfl
@[simp] theorem setVru_vru (s : State) (v : Vru) : (s.setVru v).vru = v := rfl
@[simp] theorem setVru_events (s : State) (v : Vru) : (s.setVru v).events = s.events := rfl
@[simp] theorem setVru_now (s : State) (v : Vru) : (s.setVru v).now = s.now := rfl
@[simp] theorem setVru_fault (s : State) (v : Vru) : (s.setVru v).fault = s.fault := rfl
@[simp] theorem setVru_dram (s : State) (v : Vru) : (s.setVru v).dram = s.dram := rfl
@[simp] theorem setVru_ui (s : State) (v : Vru) : (s.setVru v).ui = s.ui := rfl
@[simp] theorem setVru_handover (s : State) (v : Vru) : (s.setVru v).handover = s.handover := rfl
@[simp] theorem setVru_inbox (s : State) (v : Vru) : (s.setVru v).inbox = s.inbox := rfl
@[simp] theorem setVru_out (s : State) (v : Vru) : (s.setVru v).out = s.out := rfl
@[simp] theorem setVru_draws (s : State) (v : Vru) : (s.setVru v).draws = s.draws := rfl

@[simp] theorem setChan_params (s : State) (c : Channel) (h : Chan) : (s.setChan c h).params = s.params := rfl
@[simp] theorem setChan_pif (s : State) (c : Channel) (h : Chan) : (s.setChan c h).pif = s.pif := rfl
@[simp] theorem setChan_chan (s : State) (c : Channel) (h : Chan) : (s.setChan c h).chan = s.chan.set c h := rfl
@[simp] theorem setChan_pakState (s : State) (c : Channel) (h : Chan) : (s.setChan c h).pakState = s.pakState := rfl
@[simp] theorem setChan_flash (s : State) (c : Channel) (h : Chan) : (s.setChan c h).flash = s.flash := rfl
@[simp] theorem setChan_sram (s : State) (c : Channel) (h : Chan) : (s.setChan c h).sram = s.sram := rfl
@[simp] theorem setChan_vru (s : State) (c : Channel) (h : Chan) : (s.setChan c h).vru = s.vru := rfl
@[simp] theorem setChan_events (s : State) (c : Channel) (h : Chan) : (s.setChan c h).events = s.events := rfl
@[simp] theorem setChan_now (s : State) (c : Channel) (h : Chan) : (s.setChan c h).now = s.now := rfl
@[simp] theorem setChan_fault (s : State) (c : Channel) (h : Chan) : (s.setChan c h).fault = s.fault := rfl
@[simp] theorem setChan_dram (s : State) (c : Channel) (h : Chan) : (s.setChan c h).dram = s.dram := rfl
@[simp] theorem setChan_ui (s : State) (c : Channel) (h : Chan) : (s.setChan c h).ui = s.ui := rfl
@[simp] theorem setChan_handover (s : State) (c : Channel) (h : Chan) : (s.setChan c h).handover = s.handover := rfl
@[simp] theorem setChan_inbox (s : State) (c : Channel) (h : Chan) : (s.setChan c h).inbox = s.inbox := rfl
@[simp] theorem setChan_out (s : State) (c : Channel) (h : Chan) : (s.setChan c h).out = s.out := rfl
@[simp] theorem setChan_draws (s : State) (c : Channel) (h : Chan) : (s.setChan c h).draws = s.draws := rfl

@[simp] theorem setPakState_params (s : State) (c : Channel) (p : PakState) : (s.setPakState c p).params = s.params := rfl
@[simp] theorem setPakState_pif (s : State) (c : Channel) (p : PakState) : (s.setPakState c p).pif = s.pif := rfl
@[simp] theorem setPakState_chan (s : State) (c : Channel) (p : PakState) : (s.setPakState c p).chan = s.chan := rfl
@[simp] theorem setPakState_pakState (s : State) (c : Channel) (p : PakState) : (s.setPakState c p).pakState = s.pakState.set c p := rfl
@[simp] theorem setPakState_flash (s : State) (c : Channel) (p : PakState) : (s.setPakState c p).flash = s.flash := rfl
@[simp] theorem setPakState_sram (s : State) (c : Channel) (p : PakState) : (s.setPakState c p).sram = s.sram := rfl
@[simp] theorem setPakState_vru (s : State) (c : Channel) (p : PakState) : (s.setPakState c p).vru = s.vru := rfl
@[simp] theorem setPakState_events (s : State) (c : Channel) (p : PakState) : (s.setPakState c p).events = s.events := rfl
@[simp] theorem setPakState_now (s : State) (c : Channel) (p : PakState) : (s.setPakState c p).now = s.now := rfl
@[simp] theorem setPakState_fault (s : State) (c : Channel) (p : PakState) : (s.setPakState c p).fault = s.fault := rfl
@[simp] theorem setPakState_dram (s : State) (c : Channel) (p : PakState) : (s.setPakState c p).dram = s.dram := rfl
@[simp] theorem setPakState_ui (s : State) (c : Channel) (p : PakState) : (s.setPakState c p).ui = s.ui := rfl
@[simp] theorem setPakState_handover (s : State) (c : Channel) (p : PakState) : (s.setPakState c p).handover = s.handover := rfl
@[simp] theorem setPakState_inbox (s : State) (c : Channel) (p : PakState) : (s.setPakState c p).inbox = s.inbox := rfl
@[simp] theorem setPakState_out (s : State) (c : Channel) (p : PakState) : (s.setPakState c p).out = s.out := rfl
@[simp] theorem setPakState_draws (s : State) (c : Channel) (p : PakState) : (s.setPakState c p).draws = s.draws := rfl

@[simp] theorem setFault_params (s : State) (l : Latches) : (s.setFault l).params = s.params := rfl
@[simp] theorem setFault_pif (s : State) (l : Latches) : (s.setFault l).pif = s.pif := rfl
@[simp] theorem setFault_chan (s : State) (l : Latches) : (s.setFault l).chan = s.chan := rfl
@[simp] theorem setFault_pakState (s : State) (l : Latches) : (s.setFault l).pakState = s.pakState := rfl
@[simp] theorem setFault_flash (s : State) (l : Latches) : (s.setFault l).flash = s.flash := rfl
@[simp] theorem setFault_sram (s : State) (l : Latches) : (s.setFault l).sram = s.sram := rfl
@[simp] theorem setFault_vru (s : State) (l : Latches) : (s.setFault l).vru = s.vru := rfl
@[simp] theorem setFault_events (s : State) (l : Latches) : (s.setFault l).events = s.events := rfl
@[simp] theorem setFault_now (s : State) (l : Latches) : (s.setFault l).now = s.now := rfl
@[simp] theorem setFault_fault (s : State) (l : Latches) : (s.setFault l).fault = l := rfl
@[simp] theorem setFault_dram (s : State) (l : Latches) : (s.setFault l).dram = s.dram := rfl
@[simp] theorem setFault_ui (s : State) (l : Latches) : (s.setFault l).ui = s.ui := rfl
@[simp] theorem setFault_handover (s : State) (l : Latches) : (s.setFault l).handover = s.handover := rfl
@[simp] theorem setFault_inbox (s : State) (l : Latches) : (s.setFault l).inbox = s.inbox := rfl
@[simp] theorem setFault_out (s : State) (l : Latches) : (s.setFault l).out = s.out := rfl
@[simp] theorem setFault_draws (s : State) (l : Latches) : (s.setFault l).draws = s.draws := rfl

@[simp] theorem setInbox_params (s : State) (l : List Input) : (s.setInbox l).params = s.params := rfl
@[simp] theorem setInbox_pif (s : State) (l : List Input) : (s.setInbox l).pif = s.pif := rfl
@[simp] theorem setInbox_chan (s : State) (l : List Input) : (s.setInbox l).chan = s.chan := rfl
@[simp] theorem setInbox_pakState (s : State) (l : List Input) : (s.setInbox l).pakState = s.pakState := rfl
@[simp] theorem setInbox_flash (s : State) (l : List Input) : (s.setInbox l).flash = s.flash := rfl
@[simp] theorem setInbox_sram (s : State) (l : List Input) : (s.setInbox l).sram = s.sram := rfl
@[simp] theorem setInbox_vru (s : State) (l : List Input) : (s.setInbox l).vru = s.vru := rfl
@[simp] theorem setInbox_events (s : State) (l : List Input) : (s.setInbox l).events = s.events := rfl
@[simp] theorem setInbox_now (s : State) (l : List Input) : (s.setInbox l).now = s.now := rfl
@[simp] theorem setInbox_fault (s : State) (l : List Input) : (s.setInbox l).fault = s.fault := rfl
@[simp] theorem setInbox_dram (s : State) (l : List Input) : (s.setInbox l).dram = s.dram := rfl
@[simp] theorem setInbox_ui (s : State) (l : List Input) : (s.setInbox l).ui = s.ui := rfl
@[simp] theorem setInbox_handover (s : State) (l : List Input) : (s.setInbox l).handover = s.handover := rfl
@[simp] theorem setInbox_inbox (s : State) (l : List Input) : (s.setInbox l).inbox = l := rfl
@[simp] theorem setInbox_out (s : State) (l : List Input) : (s.setInbox l).out = s.out := rfl
@[simp] theorem setInbox_draws (s : State) (l : List Input) : (s.setInbox l).draws = s.draws := rfl

@[simp] theorem emit_params (s : State) (o : Output) : (s.emit o).params = s.params := rfl
@[simp] theorem emit_pif (s : State) (o : Output) : (s.emit o).pif = s.pif := rfl
@[simp] theorem emit_chan (s : State) (o : Output) : (s.emit o).chan = s.chan := rfl
@[simp] theorem emit_pakState (s : State) (o : Output) : (s.emit o).pakState = s.pakState := rfl
@[simp] theorem emit_flash (s : State) (o : Output) : (s.emit o).flash = s.flash := rfl
@[simp] theorem emit_sram (s : State) (o : Output) : (s.emit o).sram = s.sram := rfl
@[simp] theorem emit_vru (s : State) (o : Output) : (s.emit o).vru = s.vru := rfl
@[simp] theorem emit_events (s : State) (o : Output) : (s.emit o).events = s.events := rfl
@[simp] theorem emit_now (s : State) (o : Output) : (s.emit o).now = s.now := rfl
@[simp] theorem emit_fault (s : State) (o : Output) : (s.emit o).fault = s.fault := rfl
@[simp] theorem emit_dram (s : State) (o : Output) : (s.emit o).dram = s.dram := rfl
@[simp] theorem emit_ui (s : State) (o : Output) : (s.emit o).ui = s.ui := rfl
@[simp] theorem emit_handover (s : State) (o : Output) : (s.emit o).handover = s.handover := rfl
@[simp] theorem emit_inbox (s : State) (o : Output) : (s.emit o).inbox = s.inbox := rfl
@[simp] theorem emit_out (s : State) (o : Output) : (s.emit o).out = s.out ++ [o] := rfl
@[simp] theorem emit_draws (s : State) (o : Output) : (s.emit o).draws = s.draws := rfl

@[simp] theorem emitAll_params (s : State) (os : List Output) : (s.emitAll os).params = s.params := rfl
@[simp] theorem emitAll_pif (s : State) (os : List Output) : (s.emitAll os).pif = s.pif := rfl
@[simp] theorem emitAll_chan (s : State) (os : List Output) : (s.emitAll os).chan = s.chan := rfl
@[simp] theorem emitAll_pakState (s : State) (os : List Output) : (s.emitAll os).pakState = s.pakState := rfl
@[simp] theorem emitAll_flash (s : State) (os : List Output) : (s.emitAll os).flash = s.flash := rfl
@[simp] theorem emitAll_sram (s : State) (os : List Output) : (s.emitAll os).sram = s.sram := rfl
@[simp] theorem emitAll_vru (s : State) (os : List Output) : (s.emitAll os).vru = s.vru := rfl
@[simp] theorem emitAll_events (s : State) (os : List Output) : (s.emitAll os).events = s.events := rfl
@[simp] theorem emitAll_now (s : State) (os : List Output) : (s.emitAll os).now = s.now := rfl
@[simp] theorem emitAll_fault (s : State) (os : List Output) : (s.emitAll os).fault = s.fault := rfl
@[simp] theorem emitAll_dram (s : State) (os : List Output) : (s.emitAll os).dram = s.dram := rfl
@[simp] theorem emitAll_ui (s : State) (os : List Output) : (s.emitAll os).ui = s.ui := rfl
@[simp] theorem emitAll_handover (s : State) (os : List Output) : (s.emitAll os).handover = s.handover := rfl
@[simp] theorem emitAll_inbox (s : State) (os : List Output) : (s.emitAll os).inbox = s.inbox := rfl
@[simp] theorem emitAll_out (s : State) (os : List Output) : (s.emitAll os).out = s.out ++ os := rfl
@[simp] theorem emitAll_draws (s : State) (os : List Output) : (s.emitAll os).draws = s.draws := rfl

@[simp] theorem nextDraw_params (s : State) : s.nextDraw.params = s.params := rfl
@[simp] theorem nextDraw_pif (s : State) : s.nextDraw.pif = s.pif := rfl
@[simp] theorem nextDraw_chan (s : State) : s.nextDraw.chan = s.chan := rfl
@[simp] theorem nextDraw_pakState (s : State) : s.nextDraw.pakState = s.pakState := rfl
@[simp] theorem nextDraw_flash (s : State) : s.nextDraw.flash = s.flash := rfl
@[simp] theorem nextDraw_sram (s : State) : s.nextDraw.sram = s.sram := rfl
@[simp] theorem nextDraw_vru (s : State) : s.nextDraw.vru = s.vru := rfl
@[simp] theorem nextDraw_events (s : State) : s.nextDraw.events = s.events := rfl
@[simp] theorem nextDraw_now (s : State) : s.nextDraw.now = s.now := rfl
@[simp] theorem nextDraw_fault (s : State) : s.nextDraw.fault = s.fault := rfl
@[simp] theorem nextDraw_dram (s : State) : s.nextDraw.dram = s.dram := rfl
@[simp] theorem nextDraw_ui (s : State) : s.nextDraw.ui = s.ui := rfl
@[simp] theorem nextDraw_handover (s : State) : s.nextDraw.handover = s.handover := rfl
@[simp] theorem nextDraw_inbox (s : State) : s.nextDraw.inbox = s.inbox := rfl
@[simp] theorem nextDraw_out (s : State) : s.nextDraw.out = s.out := rfl
@[simp] theorem nextDraw_draws (s : State) : s.nextDraw.draws = s.draws + 1 := rfl

@[simp] theorem setPakSwitch_params (s : State) (e : Option Nat) : (s.setPakSwitch e).params = s.params := rfl
@[simp] theorem setPakSwitch_pif (s : State) (e : Option Nat) : (s.setPakSwitch e).pif = s.pif := rfl
@[simp] theorem setPakSwitch_chan (s : State) (e : Option Nat) : (s.setPakSwitch e).chan = s.chan := rfl
@[simp] theorem setPakSwitch_pakState (s : State) (e : Option Nat) : (s.setPakSwitch e).pakState = s.pakState := rfl
@[simp] theorem setPakSwitch_flash (s : State) (e : Option Nat) : (s.setPakSwitch e).flash = s.flash := rfl
@[simp] theorem setPakSwitch_sram (s : State) (e : Option Nat) : (s.setPakSwitch e).sram = s.sram := rfl
@[simp] theorem setPakSwitch_vru (s : State) (e : Option Nat) : (s.setPakSwitch e).vru = s.vru := rfl
@[simp] theorem setPakSwitch_events (s : State) (e : Option Nat) : (s.setPakSwitch e).events = { s.events with pakSwitch := e } := rfl
@[simp] theorem setPakSwitch_now (s : State) (e : Option Nat) : (s.setPakSwitch e).now = s.now := rfl
@[simp] theorem setPakSwitch_fault (s : State) (e : Option Nat) : (s.setPakSwitch e).fault = s.fault := rfl
@[simp] theorem setPakSwitch_dram (s : State) (e : Option Nat) : (s.setPakSwitch e).dram = s.dram := rfl
@[simp] theorem setPakSwitch_ui (s : State) (e : Option Nat) : (s.setPakSwitch e).ui = s.ui := rfl
@[simp] theorem setPakSwitch_handover (s : State) (e : Option Nat) : (s.setPakSwitch e).handover = s.handover := rfl
@[simp] theorem setPakSwitch_inbox (s : State) (e : Option Nat) : (s.setPakSwitch e).inbox = s.inbox := rfl
@[simp] theorem setPakSwitch_out (s : State) (e : Option Nat) : (s.setPakSwitch e).out = s.out := rfl
@[simp] theorem setPakSwitch_draws (s : State) (e : Option Nat) : (s.setPakSwitch e).draws = s.draws := rfl

@[simp] theorem setVruTimeout_params (s : State) (e : Option Nat) : (s.setVruTimeout e).params = s.params := rfl
@[simp] theorem setVruTimeout_pif (s : State) (e : Option Nat) : (s.setVruTimeout e).pif = s.pif := rfl
@[simp] theorem setVruTimeout_chan (s : State) (e : Option Nat) : (s.setVruTimeout e).chan = s.chan := rfl
@[simp] theorem setVruTimeout_pakState (s : State) (e : Option Nat) : (s.setVruTimeout e).pakState = s.pakState := rfl
@[simp] theorem setVruTimeout_flash (s : State) (e : Option Nat) : (s.setVruTimeout e).flash = s.flash := rfl
@[simp] theorem setVruTimeout_sram (s : State) (e : Option Nat) : (s.setVruTimeout e).sram = s.sram := rfl
@[simp] theorem setVruTimeout_vru (s : State) (e : Option Nat) : (s.setVruTimeout e).vru = s.vru := rfl
@[simp] theorem setVruTimeout_events (s : State) (e : Option Nat) : (s.setVruTimeout e).events = { s.events with vruTimeout := e } := rfl
@[simp] theorem setVruTimeout_now (s : State) (e : Option Nat) : (s.setVruTimeout e).now = s.now := rfl
@[simp] theorem setVruTimeout_fault (s : State) (e : Option Nat) : (s.setVruTimeout e).fault = s.fault := rfl
@[simp] theorem setVruTimeout_dram (s : State) (e : Option Nat) : (s.setVruTimeout e).dram = s.dram := rfl
@[simp] theorem setVruTimeout_ui (s : State) (e : Option Nat) : (s.setVruTimeout e).ui = s.ui := rfl
@[simp] theorem setVruTimeout_handover (s : State) (e : Option Nat) : (s.setVruTimeout e).handover = s.handover := rfl
@[simp] theorem setVruTimeout_inbox (s : State) (e : Option Nat) : (s.setVruTimeout e).inbox = s.inbox := rfl
@[simp] theorem setVruTimeout_out (s : State) (e : Option Nat) : (s.setVruTimeout e).out = s.out := rfl
@[simp] theorem setVruTimeout_draws (s : State) (e : Option Nat) : (s.setVruTimeout e).draws = s.draws := rfl

@[simp] theorem putPif_params (s : State) (off : Nat) (bs : List Byte) : (s.putPif off bs).params = s.params := rfl
@[simp] theorem putPif_pif (s : State) (off : Nat) (bs : List Byte) : (s.putPif off bs).pif = s.pif.writeBytes .pif off bs := rfl
@[simp] theorem putPif_chan (s : State) (off : Nat) (bs : List Byte) : (s.putPif off bs).chan = s.chan := rfl
@[simp] theorem putPif_pakState (s : State) (off : Nat) (bs : List Byte) : (s.putPif off bs).pakState = s.pakState := rfl
@[simp] theorem putPif_flash (s : State) (off : Nat) (bs : List Byte) : (s.putPif off bs).flash = s.flash := rfl
@[simp] theorem putPif_sram (s : State) (off : Nat) (bs : List Byte) : (s.putPif off bs).sram = s.sram := rfl
@[simp] theorem putPif_vru (s : State) (off : Nat) (bs : List Byte) : (s.putPif off bs).vru = s.vru := rfl
@[simp] theorem putPif_events (s : State) (off : Nat) (bs : List Byte) : (s.putPif off bs).events = s.events := rfl
@[simp] theorem putPif_now (s : State) (off : Nat) (bs : List Byte) : (s.putPif off bs).now = s.now := rfl
@[simp] theorem putPif_fault (s : State) (off : Nat) (bs : List Byte) : (s.putPif off bs).fault = s.fault := rfl
@[simp] theorem putPif_dram (s : State) (off : Nat) (bs : List Byte) : (s.putPif off bs).dram = s.dram := rfl
@[simp] theorem putPif_ui (s : State) (off : Nat) (bs : List Byte) : (s.putPif off bs).ui = s.ui := rfl
@[simp] theorem putPif_handover (s : State) (off : Nat) (bs : List Byte) : (s.putPif off bs).handover = s.handover := rfl
@[simp] theorem putPif_inbox (s : State) (off : Nat) (bs : List Byte) : (s.putPif off bs).inbox = s.inbox := rfl
@[simp] theorem putPif_out (s : State) (off : Nat) (bs : List Byte) : (s.putPif off bs).out = s.out := rfl
@[simp] theorem putPif_draws (s : State) (off : Nat) (bs : List Byte) : (s.putPif off bs).draws = s.draws := rfl

end Sys2Proof.Machine.State
end

