-- ==== Sys2Proof/Laws/Ops.lean ====
section
/-! SUPPORT. What each shared operation can do: latches, gates, frames, operand forms. -/

namespace Sys2Proof.Machine

/-! ### Fatals and latches -/

theorem raiseFatal_eq (k : FatalKind) (info : FatalInfo) (s : State) :
    raiseFatal k info s =
      .next { s with fault := setLatch s.fault (fatalSubsystem k) k, out := s.out ++ [.fatal k info] } := rfl

@[simp] theorem latchOf_setLatch_same (l : Latches) (sub : Subsystem) (k : FatalKind) :
    latchOf (setLatch l sub k) sub = some k := by cases sub <;> rfl

theorem latchOf_setLatch_other (l : Latches) {sub sub' : Subsystem} (k : FatalKind) (h : sub' ≠ sub) :
    latchOf (setLatch l sub k) sub' = latchOf l sub' := by
  cases sub <;> cases sub' <;> first | rfl | exact absurd rfl h

theorem unlessHalted_ready {sub : Subsystem} {s : State} (r : Result) (h : latchOf s.fault sub = none) :
    unlessHalted sub s r = r := by simp [unlessHalted, h]

theorem unlessHalted_halted {sub : Subsystem} {s : State} {k : FatalKind} (r : Result)
    (h : latchOf s.fault sub = some k) : unlessHalted sub s r = .refused (.halted sub) := by simp [unlessHalted, h]

/-- A guarded operation that answers a next state found its latch clear. -/
theorem unlessHalted_next {sub : Subsystem} {s t : State} {r : Result} (h : unlessHalted sub s r = .next t) :
    latchOf s.fault sub = none ∧ r = .next t := by
  unfold unlessHalted at h
  split at h
  · cases h
  · exact ⟨‹_›, h⟩

/-! ### Frames -/

theorem pifGate_none {c : Channel} {s : State} (h : pifGate c s = none) :
    s.fault.pif = none ∧ s.device c ≠ .absent ∧ (s.device c = .vru → s.fault.vru = none) := by
  cases hp : s.fault.pif <;> cases hd : s.device c <;> cases hv : s.fault.vru <;> simp_all [pifGate]

theorem pifGate_controller {c : Channel} {s : State} (h1 : s.fault.pif = none) (h2 : s.device c = .controller) :
    pifGate c s = none := by simp [pifGate, h1, h2]

theorem pifGate_vru {c : Channel} {s : State} (h1 : s.fault.pif = none) (h2 : s.device c = .vru)
    (h3 : s.fault.vru = none) : pifGate c s = none := by simp [pifGate, h1, h2, h3]

theorem frameStart_fits {size tx r txLen rxLen : Nat} (h1 : tx + txLen ≤ size) (h2 : r + rxLen ≤ size) :
    frameStart size tx (some r) txLen rxLen = some r := by simp [frameStart, h1, h2]

theorem frameStart_some {size tx txLen rxLen r : Nat} {rx : Option Nat}
    (h : frameStart size tx rx txLen rxLen = some r) :
    tx + txLen ≤ size ∧ (rx = some r ∧ r + rxLen ≤ size ∨ rx = none ∧ rxLen = 0 ∧ r = 0) := by
  unfold frameStart at h
  split at h
  · refine ⟨‹_›, ?_⟩
    split at h
    · split at h
      · cases h; exact .inl ⟨rfl, ‹_›⟩
      · cases h
    · split at h
      · cases h; exact .inr ⟨rfl, ‹_›, rfl⟩
      · cases h
  · cases h

theorem withFrame_ready {c : Channel} {tx r txLen rxLen : Nat} {s : State} (run : Nat → Result)
    (hg : pifGate c s = none) (h1 : tx + txLen ≤ s.pif.len) (h2 : r + rxLen ≤ s.pif.len) :
    withFrame c tx (some r) txLen rxLen s run = run r := by
  simp [withFrame, hg, frameStart_fits h1 h2]

/-- A framed command that answers a next state ran on a frame that fits, or took the contract fatal. -/
theorem withFrame_next {c : Channel} {tx txLen rxLen : Nat} {rx : Option Nat} {s t : State} {run : Nat → Result}
    (h : withFrame c tx rx txLen rxLen s run = .next t) :
    pifGate c s = none ∧
      ((∃ r, frameStart s.pif.len tx rx txLen rxLen = some r ∧ run r = .next t) ∨
        (frameStart s.pif.len tx rx txLen rxLen = none ∧
          raiseFatal .pifContract (.frame c (some tx) rx) s = .next t)) := by
  unfold withFrame at h
  split at h
  · cases h
  · refine ⟨‹_›, ?_⟩
    split at h
    · exact .inr ⟨‹_›, h⟩
    · exact .inl ⟨_, ‹_›, h⟩

theorem withControllerFrame_next {c : Channel} {tx txLen rxLen : Nat} {rx : Option Nat} {s t : State}
    {run : Nat → Result} (h : withControllerFrame c tx rx txLen rxLen s run = .next t) :
    s.device c ≠ .vru ∧ withFrame c tx rx txLen rxLen s run = .next t := by
  unfold withControllerFrame at h
  split at h
  · cases h
  · cases h
  · exact ⟨by simp_all, h⟩

theorem withVruFrame_next {c : Channel} {tx txLen rxLen : Nat} {rx : Option Nat} {s t : State}
    {run : Nat → Result} (h : withVruFrame c tx rx txLen rxLen s run = .next t) :
    s.device c = .vru ∧ withFrame c tx rx txLen rxLen s run = .next t := by
  unfold withVruFrame at h
  split at h
  · cases h
  · exact ⟨‹_›, h⟩
  · cases h

theorem withControllerFrame_ready {c : Channel} {tx r txLen rxLen : Nat} {s : State} (run : Nat → Result)
    (hp : s.fault.pif = none) (hd : s.device c = .controller) (h1 : tx + txLen ≤ s.pif.len)
    (h2 : r + rxLen ≤ s.pif.len) : withControllerFrame c tx (some r) txLen rxLen s run = run r := by
  have hg := pifGate_controller hp hd
  simp [withControllerFrame, hg, hd, withFrame_ready run hg h1 h2]

theorem withVruFrame_ready {c : Channel} {tx r txLen rxLen : Nat} {s : State} (run : Nat → Result)
    (hp : s.fault.pif = none) (hd : s.device c = .vru) (hv : s.fault.vru = none) (h1 : tx + txLen ≤ s.pif.len)
    (h2 : r + rxLen ≤ s.pif.len) : withVruFrame c tx (some r) txLen rxLen s run = run r := by
  have hg := pifGate_vru hp hd hv
  simp [withVruFrame, hg, hd, withFrame_ready run hg h1 h2]

/-! ### Operand forms -/

theorem off17_eq_mod (a : Nat) : off17 a = a % 131072 := Nat.and_two_pow_sub_one_eq_mod a 17

theorem sramIndex_eq_mod (a : Nat) : sramIndex a = a % 32768 := Nat.and_two_pow_sub_one_eq_mod a 15

theorem wordAligned_iff (a : Nat) : wordAligned a = true ↔ a % 4 = 0 := by
  have h : a &&& 3 = a % 4 := Nat.and_two_pow_sub_one_eq_mod a 2
  simp [wordAligned, h]

/-- An aligned SRAM word lies inside the first 32KB (44_sram.md R161 b). -/
theorem sramIndex_word_inside {a : Nat} (h : a % 4 = 0) : sramIndex a + 3 < 32768 := by
  rw [sramIndex_eq_mod]
  omega

theorem dramIndex_injective (p : Params) (dram : Nat) {i j : Nat} (h : dramIndex p dram i = dramIndex p dram j) :
    i = j := by
  unfold dramIndex at h
  have := Nat.xor_left_injective h
  omega

@[simp] theorem dramBytes_length (s : State) (dram len : Nat) : (dramBytes s dram len).length = len := by
  simp [dramBytes]

@[simp] theorem dmaToDram_len (s : State) (dram : Nat) (bs : List Byte) :
    (dmaToDram s dram bs).dram.len = s.dram.len := Memory.writeAll_len ..

theorem dmaToDram_eq (s : State) (dram : Nat) (bs : List Byte) :
    dmaToDram s dram bs = s.setDram (dmaToDram s dram bs).dram := rfl

@[simp] theorem dmaToDram_params (s : State) (d : Nat) (bs : List Byte) : (dmaToDram s d bs).params = s.params := rfl
@[simp] theorem dmaToDram_pif (s : State) (d : Nat) (bs : List Byte) : (dmaToDram s d bs).pif = s.pif := rfl
@[simp] theorem dmaToDram_chan (s : State) (d : Nat) (bs : List Byte) : (dmaToDram s d bs).chan = s.chan := rfl
@[simp] theorem dmaToDram_pakState (s : State) (d : Nat) (bs : List Byte) : (dmaToDram s d bs).pakState = s.pakState := rfl
@[simp] theorem dmaToDram_flash (s : State) (d : Nat) (bs : List Byte) : (dmaToDram s d bs).flash = s.flash := rfl
@[simp] theorem dmaToDram_sram (s : State) (d : Nat) (bs : List Byte) : (dmaToDram s d bs).sram = s.sram := rfl
@[simp] theorem dmaToDram_vru (s : State) (d : Nat) (bs : List Byte) : (dmaToDram s d bs).vru = s.vru := rfl
@[simp] theorem dmaToDram_events (s : State) (d : Nat) (bs : List Byte) : (dmaToDram s d bs).events = s.events := rfl
@[simp] theorem dmaToDram_now (s : State) (d : Nat) (bs : List Byte) : (dmaToDram s d bs).now = s.now := rfl
@[simp] theorem dmaToDram_fault (s : State) (d : Nat) (bs : List Byte) : (dmaToDram s d bs).fault = s.fault := rfl
@[simp] theorem dmaToDram_ui (s : State) (d : Nat) (bs : List Byte) : (dmaToDram s d bs).ui = s.ui := rfl
@[simp] theorem dmaToDram_handover (s : State) (d : Nat) (bs : List Byte) : (dmaToDram s d bs).handover = s.handover := rfl
@[simp] theorem dmaToDram_inbox (s : State) (d : Nat) (bs : List Byte) : (dmaToDram s d bs).inbox = s.inbox := rfl
@[simp] theorem dmaToDram_out (s : State) (d : Nat) (bs : List Byte) : (dmaToDram s d bs).out = s.out := rfl
@[simp] theorem dmaToDram_draws (s : State) (d : Nat) (bs : List Byte) : (dmaToDram s d bs).draws = s.draws := rfl

theorem dmaToDram_wf {s : State} (h : s.dram.wf .dram = true) (dram : Nat) (bs : List Byte) :
    (dmaToDram s dram bs).dram.wf .dram = true := Memory.writeAll_wf h _

/-- Main-memory bytes whose index is the adjusted index of no DMA byte read as before. -/
theorem dmaToDram_read_other {s : State} (h : s.dram.wf .dram = true) (dram : Nat) (bs : List Byte) (a : Nat)
    (ha : ∀ i, i < bs.length → a ≠ dramIndex s.params dram i) :
    (dmaToDram s dram bs).dram.read .dram a = s.dram.read .dram a := by
  refine Memory.read_writeAll_other h _ a (fun c hc => ?_)
  obtain ⟨d, hd, rfl⟩ := List.mem_map.mp hc
  have := cellsFrom_mem_range hd
  exact fun e => ha d.1 (by omega) e.symm

theorem putPif_pifByte {s : State} (h : s.pif.wf .pif = true) (off : Nat) (bs : List Byte) (j : Nat) :
    (s.putPif off bs).pifByte j =
      if off ≤ j ∧ j < off + bs.length ∧ j < s.pif.len then bs.getD (j - off) 0x00#8 else s.pifByte j :=
  Memory.read_writeBytes h off j bs

end Sys2Proof.Machine
end

