-- ==== Sys2Proof/Laws/Dispatch.lean ====
section
/-! SUPPORT. The command a FlashRAM write carries is the instruction its word decodes to. -/

namespace Sys2Proof.Machine

/-- A word that decodes to an instruction is run as that instruction. -/
theorem runFlashCommand_of_some {v : Word} {i : Instr} (h : decodeFlash v = some i) (s : State) :
    runFlashCommand v s = exec i s := by
  unfold decodeFlash at h
  unfold runFlashCommand
  split at h <;> cases h <;> first | rfl | (rename_i h'; simp only [h']; rfl)

/-- A word that decodes to no instruction is the unknown-command fatal. -/
theorem runFlashCommand_of_none {v : Word} (h : decodeFlash v = none) (s : State) :
    runFlashCommand v s = raiseFatal .flashUnknownCommand (.value v) s := by
  unfold decodeFlash at h
  unfold runFlashCommand
  split at h <;> cases h
  first | rfl | (split <;> first | contradiction | rfl)

/-- What a word of the FlashRAM format decodes to is one of the eight commands. -/
theorem decodeFlash_cases {v : Word} {i : Instr} (h : decodeFlash v = some i) :
    i ∈ [Instr.flChipEraseMode, .flSectorEraseMode (flArg16 v), .flEraseExecute, .flProgramExecute (flArg16 v),
      .flPageProgramMode, .flStatusMode, .flReadSiliconIdMode, .flReadArrayMode] := by
  unfold decodeFlash at h
  split at h <;> cases h <;> simp

end Sys2Proof.Machine
end

