-- ==== Sys2Proof/Laws/Jcmd.lean ====
section
/-! SUPPORT. What a response write and the calls of a pak handler can do. -/

namespace Sys2Proof.Machine

/-! ### Response bytes -/

@[simp] theorem putPif_len (s : State) (off : Nat) (bs : List Byte) : (s.putPif off bs).pif.len = s.pif.len :=
  Memory.writeBytes_len ..

theorem putPif_wf {s : State} (h : s.pif.wf .pif = true) (off : Nat) (bs : List Byte) :
    (s.putPif off bs).pif.wf .pif = true := Memory.writeBytes_wf h _ _

/-- Byte `k` of a response that fits is byte `k` of the list. -/
theorem putPif_byte {s : State} (h : s.pif.wf .pif = true) {off k : Nat} {bs : List Byte} (hk : k < bs.length)
    (hl : off + bs.length ≤ s.pif.len) : (s.putPif off bs).pifByte (off + k) = bs.getD k 0x00#8 := by
  rw [putPif_pifByte h, if_pos (by omega)]
  congr 1
  omega

/-- A one-byte response that fits. -/
theorem putPif_single {s : State} (h : s.pif.wf .pif = true) {off : Nat} (b : Byte) (hl : off < s.pif.len) :
    (s.putPif off [b]).pifByte off = b := by
  rw [putPif_pifByte h, if_pos ⟨Nat.le_refl _, by simp, hl⟩, Nat.sub_self, List.getD_cons_zero]

/-- A state whose PIF RAM is that of a response write differs from the old one inside the response only. -/
theorem putPif_unchanged {s t : State} (h : s.pif.wf .pif = true) {off n : Nat} {bs : List Byte}
    (ht : t.pif = (s.putPif off bs).pif) (hn : bs.length = n) : PifUnchangedOutside off n s t := by
  subst hn
  refine ⟨by rw [ht, putPif_len], fun a ha => ?_⟩
  unfold State.pifByte
  rw [ht]
  exact Memory.read_writeBytes_other h bs ha

theorem bytesBe32_length (w : Word) : (bytesBe32 w).length = 4 := rfl

/-- Byte `k` of a word laid out most significant byte first. -/
theorem bytesBe32_getD (w : Word) {k : Nat} (hk : k < 4) :
    (bytesBe32 w).getD k 0x00#8 = w.extractLsb' (24 - 8 * k) 8 := by
  match k, hk with | 0, _ | 1, _ | 2, _ | 3, _ => rfl

/-! ### Fields a response write, a handler's `read` and a VRU reset leave alone -/


@[simp] theorem pakModelRead_params (call : PakCall) (s : State) : (pakModelRead call s).params = s.params := rfl
@[simp] theorem pakModelRead_chan (call : PakCall) (s : State) : (pakModelRead call s).chan = s.chan := rfl
@[simp] theorem pakModelRead_flash (call : PakCall) (s : State) : (pakModelRead call s).flash = s.flash := rfl
@[simp] theorem pakModelRead_sram (call : PakCall) (s : State) : (pakModelRead call s).sram = s.sram := rfl
@[simp] theorem pakModelRead_vru (call : PakCall) (s : State) : (pakModelRead call s).vru = s.vru := rfl
@[simp] theorem pakModelRead_events (call : PakCall) (s : State) : (pakModelRead call s).events = s.events := rfl
@[simp] theorem pakModelRead_now (call : PakCall) (s : State) : (pakModelRead call s).now = s.now := rfl
@[simp] theorem pakModelRead_fault (call : PakCall) (s : State) : (pakModelRead call s).fault = s.fault := rfl
@[simp] theorem pakModelRead_dram (call : PakCall) (s : State) : (pakModelRead call s).dram = s.dram := rfl
@[simp] theorem pakModelRead_ui (call : PakCall) (s : State) : (pakModelRead call s).ui = s.ui := rfl
@[simp] theorem pakModelRead_handover (call : PakCall) (s : State) : (pakModelRead call s).handover = s.handover := rfl
@[simp] theorem pakModelRead_inbox (call : PakCall) (s : State) : (pakModelRead call s).inbox = s.inbox := rfl
@[simp] theorem pakModelRead_out (call : PakCall) (s : State) : (pakModelRead call s).out = s.out := rfl
@[simp] theorem pakModelRead_draws (call : PakCall) (s : State) : (pakModelRead call s).draws = s.draws := rfl

@[simp] theorem vruReset_pif (s : State) : (vruReset s).pif = s.pif := rfl
@[simp] theorem vruReset_params (s : State) : (vruReset s).params = s.params := rfl
@[simp] theorem vruReset_chan (s : State) : (vruReset s).chan = s.chan := rfl
@[simp] theorem vruReset_pakState (s : State) : (vruReset s).pakState = s.pakState := rfl
@[simp] theorem vruReset_flash (s : State) : (vruReset s).flash = s.flash := rfl
@[simp] theorem vruReset_sram (s : State) : (vruReset s).sram = s.sram := rfl
@[simp] theorem vruReset_now (s : State) : (vruReset s).now = s.now := rfl
@[simp] theorem vruReset_fault (s : State) : (vruReset s).fault = s.fault := rfl
@[simp] theorem vruReset_dram (s : State) : (vruReset s).dram = s.dram := rfl
@[simp] theorem vruReset_ui (s : State) : (vruReset s).ui = s.ui := rfl
@[simp] theorem vruReset_handover (s : State) : (vruReset s).handover = s.handover := rfl
@[simp] theorem vruReset_inbox (s : State) : (vruReset s).inbox = s.inbox := rfl
@[simp] theorem vruReset_out (s : State) : (vruReset s).out = s.out := rfl
@[simp] theorem vruReset_draws (s : State) : (vruReset s).draws = s.draws := rfl

/-! ### Pak handler calls -/

/-- The 32 bytes a handler's `read` delivers. -/
theorem pakModelRead_eq (call : PakCall) (s : State) :
    pakModelRead call s = { s with
      pif := s.pif.writeBytes .pif call.dataOffset
        ((List.range call.size).map (Config.pakReadByte call (s.pakState.get call.channel)))
      pakState := s.pakState.set call.channel (Config.pakReadState call (s.pakState.get call.channel)) } := rfl

@[simp] theorem pakModelRead_len (call : PakCall) (s : State) : (pakModelRead call s).pif.len = s.pif.len :=
  Memory.writeBytes_len ..

theorem pakModelRead_wf {s : State} (h : s.pif.wf .pif = true) (call : PakCall) :
    (pakModelRead call s).pif.wf .pif = true := Memory.writeBytes_wf h _ _

/-- A handler's `read` delivers `size` bytes from `dataOffset` on and leaves every other byte alone. -/
theorem pakModelRead_byte {s : State} (h : s.pif.wf .pif = true) (call : PakCall) (j : Nat) :
    (pakModelRead call s).pifByte j =
      if call.dataOffset ≤ j ∧ j < call.dataOffset + call.size ∧ j < s.pif.len then
        Config.pakReadByte call (s.pakState.get call.channel) (j - call.dataOffset)
      else s.pifByte j := by
  unfold State.pifByte
  rw [pakModelRead_eq]
  simp only
  rw [Memory.read_writeBytes h, List.length_map, List.length_range]
  split
  · rw [List.getD_eq_getElem _ _ (by simp; omega)]
    simp
  · rfl

/-- A handler's `write` changes the channel's pak state and the outputs only. -/
theorem pakModelWrite_eq (call : PakCall) (s : State) :
    pakModelWrite call s = { s with
      pakState := s.pakState.set call.channel
        (Config.pakWriteState call (s.pif.bytes .pif call.dataOffset call.size) (s.pakState.get call.channel))
      out := s.out ++ (Config.pakWriteRumble call (s.pif.bytes .pif call.dataOffset call.size)
        (s.pakState.get call.channel)).map (.rumble call.channel) } := rfl

/-- A handler's `read` leaves the pak of every other channel alone (60_exceptions.md R210). -/
theorem pakModelRead_otherPak (call : PakCall) (s : State) {d : Channel} (h : d ≠ call.channel) :
    (pakModelRead call s).pakState.get d = s.pakState.get d := Quad.get_set_other _ _ h

/-- A handler's `write` leaves the pak of every other channel alone (60_exceptions.md R210). -/
theorem pakModelWrite_otherPak (call : PakCall) (s : State) {d : Channel} (h : d ≠ call.channel) :
    (pakModelWrite call s).pakState.get d = s.pakState.get d := Quad.get_set_other _ _ h

end Sys2Proof.Machine
end

