-- ==== Sys2Proof/Laws/Pak.lean ====
section
/-! SUPPORT. What the completion of a pak switch does to one channel. -/

namespace Sys2Proof.Machine

theorem Quad_set_get {α : Type} (q : Quad α) (c : Channel) : q.set c (q.get c) = q := by
  match c with | 0 | 1 | 2 | 3 => rfl

/-- Completion on channel `c`, in every case, as one update of the state. -/
theorem completeSwitch_eq (s : State) (c : Channel) :
    completeSwitch s c = { s with
      chan := s.chan.set c (match (s.chan.get c).changePak with
        | none => s.chan.get c
        | some k => ⟨some (rotate k), none⟩)
      pakState := s.pakState.set c (if (s.chan.get c).changePak.isSome then
        Config.pakStopRumble c (s.pakState.get c) else s.pakState.get c)
      out := s.out ++ if (s.chan.get c).changePak.isSome then [.rumble c false, .audioCue] else [] } := by
  unfold completeSwitch
  split <;> rename_i h <;> rw [h]
  · simp [Quad_set_get]
  · rfl

/-- Completion on any channels changes the channels, the pak state and the outputs only. -/
theorem completeSwitches_eq (cs : List Channel) (s : State) :
    cs.foldl completeSwitch s = { s with
      chan := (cs.foldl completeSwitch s).chan
      pakState := (cs.foldl completeSwitch s).pakState
      out := (cs.foldl completeSwitch s).out } := by
  induction cs generalizing s with
  | nil => rfl
  | cons c cs ih => rw [List.foldl_cons, ih, completeSwitch_eq]

end Sys2Proof.Machine
end

