-- ==== Sys2Proof/Laws/PerInstr.lean ====
section
/-! SUPPORT. Statements made per instruction. -/

namespace Sys2Proof.Laws.EncodeWellFormed

/-- What a well-formed instruction is presented as is well formed: the bus operation it encodes to, where it is one. -/
def Statement (i : Instr) : Prop :=
  i.wellFormed = true → ∀ b, encode i = .busop b → b.wellFormed = true

theorem status (c : Channel) (tx : Nat) (rx : Option Nat) : Statement (.status c tx rx) := fun _ _ h => nomatch h
theorem controllerRead (c : Channel) (tx : Nat) (rx : Option Nat) : Statement (.controllerRead c tx rx) :=
  fun _ _ h => nomatch h
theorem pakRead (c : Channel) (tx : Nat) (rx : Option Nat) : Statement (.pakRead c tx rx) := fun _ _ h => nomatch h
theorem pakWrite (c : Channel) (tx : Nat) (rx : Option Nat) : Statement (.pakWrite c tx rx) := fun _ _ h => nomatch h
theorem reset (c : Channel) (tx : Nat) (rx : Option Nat) : Statement (.reset c tx rx) := fun _ _ h => nomatch h
theorem vruRead (c : Channel) (tx : Nat) (rx : Option Nat) : Statement (.vruRead c tx rx) := fun _ _ h => nomatch h
theorem vruWrite (c : Channel) (tx : Nat) (rx : Option Nat) : Statement (.vruWrite c tx rx) := fun _ _ h => nomatch h
theorem vruReadStatus (c : Channel) (tx : Nat) (rx : Option Nat) : Statement (.vruReadStatus c tx rx) :=
  fun _ _ h => nomatch h
theorem vruWriteConfig (c : Channel) (tx : Nat) (rx : Option Nat) : Statement (.vruWriteConfig c tx rx) :=
  fun _ _ h => nomatch h
theorem vruWriteInit (c : Channel) (tx : Nat) (rx : Option Nat) : Statement (.vruWriteInit c tx rx) :=
  fun _ _ h => nomatch h
theorem flChipEraseMode : Statement .flChipEraseMode := fun _ _ h => nomatch h
theorem flSectorEraseMode (a : Half) : Statement (.flSectorEraseMode a) := fun _ _ h => nomatch h
theorem flEraseExecute : Statement .flEraseExecute := fun _ _ h => nomatch h
theorem flProgramExecute (a : Half) : Statement (.flProgramExecute a) := fun _ _ h => nomatch h
theorem flPageProgramMode : Statement .flPageProgramMode := fun _ _ h => nomatch h
theorem flStatusMode : Statement .flStatusMode := fun _ _ h => nomatch h
theorem flReadSiliconIdMode : Statement .flReadSiliconIdMode := fun _ _ h => nomatch h
theorem flReadArrayMode : Statement .flReadArrayMode := fun _ _ h => nomatch h
theorem flashMmioRead (a : Nat) : Statement (.flashMmioRead a) := by rintro - b ⟨⟩; rfl
theorem flashMmioWrite (a : Nat) (v m : Word) : Statement (.flashMmioWrite a v m) := by rintro - b ⟨⟩; rfl
theorem flashDmaRead (c d n : Nat) : Statement (.flashDmaRead c d n) := by rintro - b ⟨⟩; rfl
theorem flashDmaWrite (c d n : Nat) : Statement (.flashDmaWrite c d n) := by rintro - b ⟨⟩; rfl
theorem sramMmioRead (a : Nat) : Statement (.sramMmioRead a) := by rintro - b ⟨⟩; rfl
theorem sramMmioWrite (a : Nat) (v m : Word) : Statement (.sramMmioWrite a v m) := by rintro - b ⟨⟩; rfl
theorem sramDmaRead (c d n : Nat) : Statement (.sramDmaRead c d n) := by rintro - b ⟨⟩; rfl
theorem sramDmaWrite (c d n : Nat) : Statement (.sramDmaWrite c d n) := by rintro - b ⟨⟩; rfl
theorem pakSwitchEvent : Statement .pakSwitchEvent := by rintro - b ⟨⟩; rfl
theorem vruTimeoutEvent : Statement .vruTimeoutEvent := by rintro - b ⟨⟩; rfl
theorem deviceReset : Statement .deviceReset := by rintro - b ⟨⟩; rfl
theorem installPak (c : Channel) (k : PakKind) : Statement (.installPak c k) := by rintro - b ⟨⟩; rfl
theorem loadState (f : Saved) : Statement (.loadState f) := by rintro h b ⟨⟩; exact h

end Sys2Proof.Laws.EncodeWellFormed
end

