-- ==== Sys2Proof/Laws/Storage.lean ====
section
/-! SUPPORT. What formats, erases, programs and DMA transfers do, in the terms of the statements. -/

namespace Sys2Proof.Machine

/-! ### Formatted stores -/

/-- Reading a formatted FlashRAM store. -/
theorem read_format_flash {m : Memory} (h : m.wf .flash = true) (n j : Nat) :
    (m.format n).read .flash j = formattedRead .flash n m j := Memory.read_format n j h

/-- Reading a formatted SRAM store. -/
theorem read_format_sram {m : Memory} (h : m.wf .sram = true) (n j : Nat) :
    (m.format n).read .sram j = formattedRead .sram n m j := Memory.read_format n j h

@[simp] theorem sramFormat_params (s : State) : (sramFormat s).params = s.params := rfl
@[simp] theorem sramFormat_pif (s : State) : (sramFormat s).pif = s.pif := rfl
@[simp] theorem sramFormat_chan (s : State) : (sramFormat s).chan = s.chan := rfl
@[simp] theorem sramFormat_pakState (s : State) : (sramFormat s).pakState = s.pakState := rfl
@[simp] theorem sramFormat_flash (s : State) : (sramFormat s).flash = s.flash := rfl
@[simp] theorem sramFormat_vru (s : State) : (sramFormat s).vru = s.vru := rfl
@[simp] theorem sramFormat_events (s : State) : (sramFormat s).events = s.events := rfl
@[simp] theorem sramFormat_now (s : State) : (sramFormat s).now = s.now := rfl
@[simp] theorem sramFormat_fault (s : State) : (sramFormat s).fault = s.fault := rfl
@[simp] theorem sramFormat_dram (s : State) : (sramFormat s).dram = s.dram := rfl
@[simp] theorem sramFormat_ui (s : State) : (sramFormat s).ui = s.ui := rfl
@[simp] theorem sramFormat_handover (s : State) : (sramFormat s).handover = s.handover := rfl
@[simp] theorem sramFormat_inbox (s : State) : (sramFormat s).inbox = s.inbox := rfl
@[simp] theorem sramFormat_out (s : State) : (sramFormat s).out = s.out := rfl
@[simp] theorem sramFormat_draws (s : State) : (sramFormat s).draws = s.draws := rfl
@[simp] theorem sramFormat_sram (s : State) :
    (sramFormat s).sram = { s.sram with store := s.sram.store.format Config.sramSize } := rfl

/-! ### Status bits -/

/-- A busy bit set and cleared again leaves the status with that bit clear. -/
theorem clearStatus_setStatus (b : Fin 32) (st : Word) : clearStatus b (setStatus b st) = clearStatus b st := by
  unfold clearStatus setStatus
  ext i hi
  simp only [BitVec.getElem_and, BitVec.getElem_or, BitVec.getElem_not]
  cases st[i] <;> cases (statusMask b)[i] <;> rfl

theorem eraseStatus_eq (p : Params) (st : Word) :
    eraseStatus p st = (st &&& ~~~(1#32 <<< p.eraseBusyBit.val)) ||| (1#32 <<< p.eraseSuccessBit.val) := by
  unfold eraseStatus
  rw [clearStatus_setStatus]
  rfl

theorem programStatus_eq (p : Params) (st : Word) :
    programStatus p st = (st &&& ~~~(1#32 <<< p.programBusyBit.val)) ||| (1#32 <<< p.programSuccessBit.val) := by
  unfold programStatus
  rw [clearStatus_setStatus]
  rfl

theorem getLsbD_statusMask (b c : Fin 32) : (statusMask b).getLsbD c.val = decide (c = b) := by
  have hc := c.isLt
  unfold statusMask
  rw [BitVec.getLsbD_shiftLeft, BitVec.getLsbD_one]
  by_cases h : c = b
  · subst h; simp [hc]
  · have h' : c.val ≠ b.val := fun e => h (Fin.ext e)
    by_cases hlt : c.val < b.val
    · simp [hlt, h]
    · have : c.val - b.val ≠ 0 := by omega
      simp [h, this]

theorem getLsbD_setStatus (b c : Fin 32) (st : Word) :
    (setStatus b st).getLsbD c.val = (st.getLsbD c.val || decide (c = b)) := by
  unfold setStatus
  rw [BitVec.getLsbD_or, getLsbD_statusMask]

theorem getLsbD_clearStatus (b c : Fin 32) (st : Word) :
    (clearStatus b st).getLsbD c.val = (st.getLsbD c.val && !decide (c = b)) := by
  unfold clearStatus
  rw [BitVec.getLsbD_and, BitVec.getLsbD_not, getLsbD_statusMask]
  simp

/-! ### Bytes of a word -/

/-- Byte `k` of the word assembled from four bytes. -/
theorem be32_byte (b0 b1 b2 b3 : Byte) {k : Nat} (hk : k < 4) :
    (be32 b0 b1 b2 b3).extractLsb' (24 - 8 * k) 8 = [b0, b1, b2, b3].getD k 0x00#8 := by
  apply BitVec.eq_of_getLsbD_eq
  intro i hi
  unfold be32
  simp only [BitVec.getLsbD_extractLsb', BitVec.getLsbD_append, hi, decide_true, Bool.true_and]
  match k, hk with
  | 0, _ => rw [if_neg (by omega), List.getD_cons_zero]; congr 1; omega
  | 1, _ => rw [if_pos (by omega), if_neg (by omega)]; simp
  | 2, _ => rw [if_pos (by omega), if_pos (by omega), if_neg (by omega)]; simp
  | 3, _ => rw [if_pos (by omega), if_pos (by omega), if_pos (by omega)]; simp

/-- Byte `k` of the word at `a` of a memory. -/
theorem wordAt_byte (sp : Space) (m : Memory) (a : Nat) {k : Nat} (hk : k < 4) :
    (wordAt sp m a).extractLsb' (24 - 8 * k) 8 = m.read sp (a + k) := by
  unfold wordAt
  rw [be32_byte _ _ _ _ hk]
  match k, hk with | 0, _ | 1, _ | 2, _ | 3, _ => rfl

/-- A masked merge is bytewise. -/
theorem maskedWord_byte (old v m : Word) {k : Nat} (hk : k < 4) :
    (bytesBe32 (maskedWord old v m)).getD k 0x00#8 =
      ((old.extractLsb' (24 - 8 * k) 8 &&& ~~~(m.extractLsb' (24 - 8 * k) 8)) |||
        (v.extractLsb' (24 - 8 * k) 8 &&& m.extractLsb' (24 - 8 * k) 8)) := by
  rw [bytesBe32_getD _ hk]
  apply BitVec.eq_of_getLsbD_eq
  intro i hi
  have : 24 - 8 * k + i < 32 := by omega
  simp [maskedWord, hi, this]

/-! ### DMA -/

/-- Byte `i` of a byte run laid into main memory at the adjusted indices; the indices are distinct, so each byte
stays. -/
theorem dmaToDram_read {s : State} (h : s.dram.wf .dram = true) (dram : Nat) (bs : List Byte) {i : Nat}
    (hi : i < bs.length) (hl : dramIndex s.params dram i < s.dram.len) :
    (dmaToDram s dram bs).dram.read .dram (dramIndex s.params dram i) = bs.getD i 0x00#8 := by
  have key : ∀ (bs : List Byte) (m : Memory) (off : Nat), m.wf .dram = true → m.len = s.dram.len → ∀ i,
      i < bs.length → dramIndex s.params dram (off + i) < s.dram.len →
      (m.writeAll .dram ((cellsFrom off bs).map (fun c => (dramIndex s.params dram c.1, c.2)))).read .dram
        (dramIndex s.params dram (off + i)) = bs.getD i 0x00#8 := by
    intro bs
    induction bs with
    | nil => intro m off _ _ i hi; exact absurd hi (Nat.not_lt_zero _)
    | cons b bs ih =>
      intro m off hm hml i hi hl
      simp only [cellsFrom, List.map_cons, Memory.writeAll_cons]
      cases i with
      | zero =>
        rw [Memory.read_writeAll_other (Memory.write_wf hm _ _), Memory.read_write hm, if_pos ⟨rfl, by
          rw [hml]; exact hl⟩, List.getD_cons_zero]
        intro c hc e
        obtain ⟨d, hd, rfl⟩ := List.mem_map.mp hc
        have h1 := cellsFrom_mem_range hd
        have h2 := dramIndex_injective _ _ e
        omega
      | succ n =>
        have e : off + (n + 1) = off + 1 + n := by omega
        rw [e] at hl ⊢
        rw [List.getD_cons_succ]
        exact ih _ _ (Memory.write_wf hm _ _) (by rw [Memory.write_len]; exact hml) n
          (by simpa using hi) hl
  have := key bs s.dram 0 h rfl i hi (by rwa [Nat.zero_add])
  rwa [Nat.zero_add] at this

end Sys2Proof.Machine
end

