-- ==== Sys2Proof/Tests/Slice0.lean ====
section
/-! SUPPORT. The model's own tests. Expected values are those of the spec: a vector V<n> or T<n> of
95_test_vectors.md, an opcode map of 30_encoding.md, or the rule named. -/

namespace Sys2Proof.Tests

open Sys2Proof Sys2Proof.Machine
set_option Elab.async false

/-! ### Helpers -/

/-- The next state of an outcome, if it is one. -/
def nextOf (r : Result) : Option State :=
  match r with
  | .next t => some t
  | .fault _ | .refused _ => none

theorem completes {r : Result} (h : (nextOf r).isSome = true) : ∃ t, r = .next t := by
  cases r with
  | next t => exact ⟨t, rfl⟩
  | fault e => cases h
  | refused e => cases h

/-- Reset with these PIF RAM bytes from `off` on. -/
def pifAt (off : Nat) (bs : List Byte) : State := State.reset.putPif off bs

/-- `PifProcess`, and what it leaves at `off .. off+n-1` of PIF RAM. -/
def pifAnswer (s : State) (c : Channel) (tx rx : Option Nat) (off n : Nat) : Option (List Byte) :=
  (nextOf (present (.pifProcess c tx rx) s)).map (fun t => t.pif.bytes .pif off n)

/-- The FlashRAM device after an operation. -/
def flashAfter (r : Result) : Option (Word × FlashMode × Half × Bool) :=
  (nextOf r).map (fun t => (t.flash.status, t.flash.mode, t.flash.erasePage, t.flash.written))

/-- Bytes of the FlashRAM store after an operation. -/
def flashBytes (r : Result) (off n : Nat) : Option (List Byte) :=
  (nextOf r).map (fun t => t.flash.store.bytes .flash off n)

/-- Bytes of main memory after an operation. -/
def dramBytesAfter (r : Result) (off n : Nat) : Option (List Byte) :=
  (nextOf r).map (fun t => t.dram.bytes .dram off n)

/-- Bytes of the SRAM store, its length and its dirty flag after an operation. -/
def sramAfter (r : Result) (off n : Nat) : Option (List Byte × Nat × Bool) :=
  (nextOf r).map (fun t => (t.sram.store.bytes .sram off n, t.sram.store.len, t.sram.written))

/-- What an operation sends out, and the latches it leaves. -/
def sent (r : Result) : Option (List Output × Latches) := (nextOf r).map (fun t => (t.out, t.fault))

/-- No latch set. -/
def clear : Latches := ⟨none, none, none, none⟩

/-- A FlashRAM command, presented as the write that carries it. -/
def fl (w : Word) (s : State) : Result := present (.bus (.flashMmioWrite 0x10000 w 0xFFFFFFFF#32)) s

/-- Reset with the FlashRAM device in mode `m`. -/
def inMode (m : FlashMode) : State := State.reset.setFlash { State.reset.flash with mode := m }

/-- Reset with a FlashRAM store of these bytes. -/
def withStore (bs : List Byte) : State :=
  State.reset.setFlash { State.reset.flash with store := (Memory.blankOf bs.length).writeBytes .flash 0 bs }

/-- Reset with main-memory bytes from `off` on. -/
def dramAt (off : Nat) (bs : List Byte) : State := State.reset.setDram (State.reset.dram.writeBytes .dram off bs)

/-- Reset with an SRAM store of `len` bytes, these bytes at `off`. -/
def sramAt (len off : Nat) (bs : List Byte) : State :=
  State.reset.setSram ⟨(Memory.blankOf len).writeBytes .sram off bs, false⟩

/-- Reset with a pak bound on channel `c`. -/
def withPak (c : Channel) (k : PakKind) (s : State) : State := s.setChan c ⟨some k, none⟩

/-- `s` with the UI answering this poll on every channel. -/
def polled (keys : Word) (gesture : Bool) (s : State) : State :=
  { s with ui := { s.ui with poll := Quad.all ⟨keys, gesture⟩ } }

/-- `s` with these launch parameters changed. -/
def withRegion (b : Byte) (s : State) : State := { s with params := { s.params with romRegion := b } }

/-- `s` with this one input to come. -/
def facing (i : Input) (s : State) : State := s.setInbox [i]

/-- The well-formedness of a state with an empty inbox, as one check. -/
theorem wf_of (s : State)
    (h : (paramsOk s.params && s.pif.wf .pif && s.flash.store.wf .flash && s.sram.store.wf .sram && s.dram.wf .dram
      && s.flash.pageBuf.length == Config.pageSize && s.vru.wordBuffer.length == Config.vruSlots
      && handedWf .flash s.handover.flash && handedWf .sram s.handover.sram && s.inbox.all Input.wf) = true) :
    s.WF := by
  simp only [Bool.and_eq_true, beq_iff_eq, List.all_eq_true] at h
  obtain ⟨⟨⟨⟨⟨⟨⟨⟨⟨h1, h2⟩, h3⟩, h4⟩, h5⟩, h6⟩, h7⟩, h8⟩, h9⟩, h10⟩ := h
  exact ⟨h1, h2, h3, h4, h5, h6, h7, h8, h9, h10⟩

/-! ### Well-formedness: each check refuses an ill-formed term -/

/-- A well-typed operand of `LoadState`. -/
def saved : Saved where
  flashStatus := 0x0C#32
  flashMode := .status
  flashErasePage := 0x80#16
  flashPageBuf := List.replicate 128 0x5A#8
  flashSiliconId0 := 0x11118001#32
  flashSiliconId1 := 0x003200F1#32
  vruStatus := 3
  vruVoiceState := .busy
  vruLoadOffset := 4
  vruVoiceInit := 1
  vruWordBuffer := List.replicate 40 7
  vruWords := ["go"]
  vruTalking := true
  kinds := ⟨some .rumblePak, none, some .memPak, none⟩

theorem test_saved_wellFormed : (Instr.loadState saved).wellFormed = true := by decide +kernel
theorem test_pageBuf_of_127_refused :
    (Instr.loadState { saved with flashPageBuf := List.replicate 127 0#8 }).wellFormed = false := by decide +kernel
theorem test_pageBuf_check : Saved.pageBufOk { saved with flashPageBuf := List.replicate 129 0#8 } = false := by
  decide +kernel
theorem test_wordBuffer_of_39_refused :
    (Instr.loadState { saved with vruWordBuffer := List.replicate 39 0 }).wellFormed = false := by decide +kernel
theorem test_wordBuffer_check : Saved.wordBufferOk { saved with vruWordBuffer := [] } = false := by decide +kernel
theorem test_bus_illFormed_refused :
    BusOp.wellFormed (.loadState { saved with flashPageBuf := [] }) = false := by decide +kernel
theorem test_op_illFormed_refused :
    Op.wellFormed (.bus (.loadState { saved with vruWordBuffer := [] })) = false := by decide +kernel

/-! ### Decoding: a word for each constructor, from R67 to R69; the bus operations by their port (R63) -/

theorem test_decode_status : decodeTableWord 8 0x00 = some (.status 0 0 (some 3)) := by decide
theorem test_decode_controllerRead : decodeTableWord 8 0x01 = some (.controllerRead 0 0 (some 3)) := by decide
theorem test_decode_pakRead : decodeTableWord 8 0x02 = some (.pakRead 0 0 (some 3)) := by decide
theorem test_decode_pakWrite : decodeTableWord 8 0x03 = some (.pakWrite 0 0 (some 3)) := by decide
theorem test_decode_reset : decodeTableWord 8 0xFF = some (.reset 0 0 (some 3)) := by decide
theorem test_decode_vruRead : decodeTableWord 8 0x09 = some (.vruRead 3 0 (some 3)) := by decide
theorem test_decode_vruWrite : decodeTableWord 8 0x0A = some (.vruWrite 3 0 (some 3)) := by decide
theorem test_decode_vruReadStatus : decodeTableWord 8 0x0B = some (.vruReadStatus 3 0 (some 3)) := by decide
theorem test_decode_vruWriteConfig : decodeTableWord 8 0x0C = some (.vruWriteConfig 3 0 (some 3)) := by decide
theorem test_decode_vruWriteInit : decodeTableWord 8 0x0D = some (.vruWriteInit 3 0 (some 3)) := by decide
theorem test_decode_unknown_code : decodeTableWord 8 0x04 = none := by decide
theorem test_decode_vru_code_on_controller :
    decode (.jcmd .controller 0 0 (some 3) 0x09#8) = .error (.unknownJcmd 0x09#8) := by decide
theorem test_decode_absent_channel : decode (.jcmd .absent 2 0 none 0x00#8) = .error (.absentChannel 2) := by decide
theorem test_decode_flChipEraseMode : decodeTableWord 32 0x3C000000 = some .flChipEraseMode := by decide
theorem test_decode_flSectorEraseMode : decodeTableWord 32 0x4B0000FF = some (.flSectorEraseMode 0x00FF#16) := by
  decide
theorem test_decode_flEraseExecute : decodeTableWord 32 0x78000000 = some .flEraseExecute := by decide
theorem test_decode_flProgramExecute : decodeTableWord 32 0xA5000003 = some (.flProgramExecute 0x0003#16) := by
  decide
theorem test_decode_flPageProgramMode : decodeTableWord 32 0xB4000000 = some .flPageProgramMode := by decide
theorem test_decode_flStatusMode : decodeTableWord 32 0xD2000000 = some .flStatusMode := by decide
theorem test_decode_flReadSiliconIdMode : decodeTableWord 32 0xE1000000 = some .flReadSiliconIdMode := by decide
theorem test_decode_flReadArrayMode : decodeTableWord 32 0xF0000000 = some .flReadArrayMode := by decide
theorem test_decode_ignored_bits : decodeTableWord 32 0xA5FF0081 = some (.flProgramExecute 0x0081#16) := by decide
theorem test_decode_unknown_opcode :
    decode (.flcmd 0x12345678#32) = .error (.unknownFlashCommand 0x12345678#32) := by decide
theorem test_decode_flashMmioRead : decodeTableWord 17 0x00000 = some (.flashMmioRead 0) := by decide
theorem test_decode_flashMmioWrite :
    decodeTableWord 17 0x10000 = some (.flashMmioWrite 0x10000 0#32 0xFFFFFFFF#32) := by decide
theorem test_decode_flashDmaRead :
    decode (.busop (.flashDmaRead 0 0x100 128)) = .ok (.flashDmaRead 0 0x100 128) := by decide
theorem test_decode_flashDmaWrite :
    decode (.busop (.flashDmaWrite 8 0x40 4)) = .ok (.flashDmaWrite 8 0x40 4) := by decide
theorem test_decode_sramMmioRead : decode (.busop (.sramMmioRead 0x8010)) = .ok (.sramMmioRead 0x8010) := by decide
theorem test_decode_sramMmioWrite :
    decode (.busop (.sramMmioWrite 4 1#32 2#32)) = .ok (.sramMmioWrite 4 1#32 2#32) := by decide
theorem test_decode_sramDmaRead :
    decode (.busop (.sramDmaRead 1 2 3)) = .ok (.sramDmaRead 1 2 3) := by decide
theorem test_decode_sramDmaWrite :
    decode (.busop (.sramDmaWrite 1 2 3)) = .ok (.sramDmaWrite 1 2 3) := by decide
theorem test_decode_pakSwitchEvent : decode (.busop .pakSwitchEvent) = .ok .pakSwitchEvent := by decide
theorem test_decode_vruTimeoutEvent : decode (.busop .vruTimeoutEvent) = .ok .vruTimeoutEvent := by decide
theorem test_decode_deviceReset : decode (.busop .deviceReset) = .ok .deviceReset := by decide
theorem test_decode_installPak :
    decode (.busop (.installPak 2 .rumblePak)) = .ok (.installPak 2 .rumblePak) := by decide
theorem test_decode_loadState : decode (.busop (.loadState saved)) = .ok (.loadState saved) := rfl

/-! ### `withFetchWord` and `step` -/

theorem test_step_fetches_status :
    (nextOf (step (State.reset.withFetchWord 8 0x00))).map (fun t => t.pif.bytes .pif 0 6) =
      some [0x00#8, 0x00#8, 0x00#8, 0x05#8, 0x00#8, 0x02#8] := by decide +kernel
theorem test_step_fetches_flStatusMode :
    flashAfter (step (State.reset.withFetchWord 32 0xD2000000)) = some (0#32, .status, 0#16, false) := by
  decide +kernel
theorem test_step_idle : step State.reset = .next State.reset := rfl
/-- Out of range for a host write: byte 64 of 64 (10_state.md R14). -/
theorem test_host_write_outside : step (facing (.hostPif 64 0x01#8) State.reset) = .fault .hostOutsidePif := rfl
theorem test_host_write_last :
    (nextOf (step (facing (.hostPif 63 0x01#8) State.reset))).map (fun t => t.pifByte 63) = some 0x01#8 := by
  decide +kernel

/-! ### CRC-8 -/

theorem test_crc_V1 : crcBytes [] = 0x00#8 := by decide
theorem test_crc_V3 : crcBytes [0x01#8] = 0x85#8 := by decide
theorem test_crc_V4 : crcBytes [0x80#8] = 0x89#8 := by decide
theorem test_crc_V6 : crcBytes [0x01#8, 0x00#8] = 0x97#8 := by decide
theorem test_crc_V9 :
    crcBytes [0x31#8, 0x32#8, 0x33#8, 0x34#8, 0x35#8, 0x36#8, 0x37#8, 0x38#8, 0x39#8] = 0x2A#8 := by decide +kernel
theorem test_crc_V12 : crcBytes ((List.range 32).map (BitVec.ofNat 8)) = 0x33#8 := by decide +kernel
theorem test_crc_V15 : crcBytes (List.replicate 32 0x80#8) = 0xB8#8 := by decide +kernel
theorem test_crc_V18 : crcBytes [0x00#8, 0x00#8, 0x00#8, 0x1D#8] = 0x4E#8 := by decide +kernel
theorem test_crc_V19 : crcBytes [0x00#8, 0x00#8, 0x00#8, 0x91#8] = 0xEF#8 := by decide +kernel
theorem test_crc_V21 :
    crc8 .pif ((Memory.blankOf 6).writeBytes .pif 0 [0xAA#8, 0xBB#8, 0x01#8, 0x02#8, 0x03#8, 0xCC#8]) 2 3 = 0x5A#8 := by
  decide +kernel

/-! ### Pak address -/

theorem test_pakAddress_V32 : pakAddress 0xC0#8 0x1B#8 = 0xC000#16 := by decide
theorem test_pakAddress_V33 : pakAddress 0x12#8 0xFF#8 = 0x12E0#16 := by decide
theorem test_pakAddress_V35 : pakAddress 0x7F#8 0x3F#8 = 0x7F20#16 := by decide

/-! ### Dispatcher -/

theorem test_status_V40 :
    pifAnswer (pifAt 0x10 [0x00#8]) 1 (some 0x10) (some 0x14) 0x14 3 = some [0x05#8, 0x00#8, 0x02#8] := by
  decide +kernel
theorem test_reset_V41 :
    pifAnswer (withPak 1 .rumblePak (pifAt 0x10 [0xFF#8])) 1 (some 0x10) (some 0x14) 0x14 3 =
      some [0x05#8, 0x00#8, 0x01#8] := by decide +kernel
theorem test_controllerRead_V42 :
    pifAnswer (polled 0x12345678#32 false (pifAt 0 [0x01#8])) 0 (some 0) (some 1) 1 4 =
      some [0x12#8, 0x34#8, 0x56#8, 0x78#8] := by decide +kernel
theorem test_controllerRead_V43 :
    (nextOf (present (.pifProcess 2 (some 0) (some 1))
      (polled 0#32 true { withPak 2 .transferPak (pifAt 0 [0x01#8]) with now := 500 }))).map
        (fun t => (t.events.pakSwitch, t.chan.c2)) = some (some 93750500, ⟨none, some .transferPak⟩) := by
  decide +kernel
theorem test_pakRead_V45 :
    pifAnswer (pifAt 0 ([0x02#8, 0x12#8, 0xFF#8] ++ (List.range 32).map (BitVec.ofNat 8))) 0 (some 0) (some 3) 0x22 2 =
      some [0x1F#8, 0xCC#8] := by decide +kernel
theorem test_pakWrite_V47 :
    pifAnswer (withPak 0 .rumblePak (pifAt 2 ([0x03#8, 0x80#8, 0x01#8] ++ List.replicate 32 0x80#8)))
      0 (some 2) (some 0x26) 0x26 1 = some [0xB8#8] := by decide +kernel
theorem test_pakWrite_V48 :
    pifAnswer (pifAt 2 ([0x03#8, 0x80#8, 0x01#8] ++ List.replicate 32 0x80#8)) 0 (some 2) (some 0x26) 0x26 1 =
      some [0x47#8] := by decide +kernel
theorem test_unknown_V49 :
    sent (present (.pifProcess 0 (some 0) (some 1)) (pifAt 0 [0x04#8])) = some ([.unknownJcmd 0x04#8], clear) := by
  decide +kernel
theorem test_contract_V50 :
    sent (present (.pifProcess 0 none (some 1)) State.reset) =
      some ([.fatal .pifContract (.frame 0 none (some 1))], ⟨some .pifContract, none, none, none⟩) := by decide +kernel
theorem test_contract_V51 :
    sent (present (.pifProcess 0 (some 0x3E) (some 0x20)) (pifAt 0x3E [0x02#8])) =
      some ([.fatal .pifContract (.frame 0 (some 0x3E) (some 0x20))], ⟨some .pifContract, none, none, none⟩) := by
  decide +kernel
theorem test_contract_V52_nearest :
    sent (present (.pifProcess 0 (some 0) (some 0x1F)) (pifAt 0 [0x02#8])) = some ([], clear) := by decide +kernel

/-! ### Pak switch -/

/-- The state a gesture on channel 2 leaves (end of V43). -/
def switching : State := (State.reset.setChan 2 ⟨none, some .transferPak⟩).setPakSwitch (some 93750500)

theorem test_pakSwitchEvent_V60 :
    (nextOf (exec .pakSwitchEvent switching)).map (fun t => (t.chan.c2, t.events.pakSwitch, t.out)) =
      some (⟨some .memPak, none⟩, none, [.rumble 2 false, .audioCue]) := by decide +kernel
theorem test_pakSwitchEvent_V61 :
    (nextOf (exec .pakSwitchEvent ((switching.setChan 0 ⟨none, some .memPak⟩).setChan 3 ⟨none, some .rumblePak⟩))).map
      (fun t => (t.chan.c0, t.chan.c3)) = some (⟨some .rumblePak, none⟩, ⟨some .transferPak, none⟩) := by decide +kernel
theorem test_pakSwitchEvent_V62 :
    exec .pakSwitchEvent State.reset = .refused (.eventNotPending .pakSwitch) := rfl
theorem test_installPak : (nextOf (exec (.installPak 0 .memPak) State.reset)).map (fun t => t.chan.c0) =
    some ⟨some .memPak, none⟩ := by decide +kernel
theorem test_installPak_in_window :
    exec (.installPak 2 .memPak) switching = .refused (.installDuringSwitch 2) := rfl

/-! ### FlashRAM -/

theorem test_mmioRead_V71 :
    sent (exec (.flashMmioRead 0x20000) State.reset) = some ([.returned 0#32], clear) := by decide +kernel
theorem test_mmioRead_V73 :
    (nextOf (exec (.flashMmioRead 0) (inMode .pageProgram))).map (fun t => t.fault.flash) =
      some (some .flashMmioShape) := by decide +kernel
theorem test_statusMode_V74 : flashAfter (fl 0xD2000000#32 State.reset) = some (0#32, .status, 0#16, false) := by
  decide +kernel
theorem test_siliconIdMode_V75 :
    flashAfter (fl 0xE1000000#32 State.reset) = some (1#32, .readSiliconId, 0#16, false) := by decide +kernel
theorem test_chipEraseMode : flashAfter (fl 0x3C000000#32 State.reset) = some (0#32, .chipErase, 0#16, false) := by
  decide +kernel
theorem test_sectorEraseMode_V78 :
    flashAfter (fl 0x4B000400#32 State.reset) = some (0#32, .sectorErase, 0x0400#16, false) := by decide +kernel
theorem test_chipErase_and_none_V76_V79 :
    (flashAfter (fl 0x78000000#32 (inMode .chipErase)) = some (8#32, .status, 0#16, true)) ∧
    (flashBytes (exec .flEraseExecute
      ((withStore [0x11#8, 0x22#8]).setFlash { (withStore [0x11#8, 0x22#8]).flash with mode := .chipErase })) 0 3 =
      some [0xFF#8, 0xFF#8, 0xFF#8]) ∧
    (flashAfter (fl 0x78000000#32 State.reset) = some (8#32, .status, 0#16, true)) := by decide +kernel
/-- T5, V77: bytes `0x3FFE`, `0x4000`, `0x7FFF`, `0x8000` around the sector of `erase_page = 0x00FF`. -/
theorem test_sectorErase_V77 :
    (nextOf (exec .flEraseExecute (State.reset.setFlash { State.reset.flash with
      mode := .sectorErase
      erasePage := 0x00FF#16
      store := ⟨131072, [(0x3FFE, 0xFE#8), (0x4000, 0x00#8), (0x7FFE, 0xFE#8), (0x8000, 0x00#8)]⟩ }))).map
        (fun t => t.flash.store) = some ⟨131072, [(0x3FFE, 0xFE#8), (0x8000, 0x00#8)]⟩ := by decide +kernel
theorem test_pageProgramMode : flashAfter (fl 0xB4000000#32 State.reset) = some (0#32, .pageProgram, 0#16, false) := by
  decide +kernel
theorem test_readArrayMode :
    flashAfter (fl 0xF0000000#32 (inMode .status)) = some (0#32, .readArray, 0#16, false) := by decide +kernel
theorem test_pageLoad_V80 :
    (nextOf (exec (.flashDmaRead 0 0x100 128)
      ((dramAt 0x100 [0x80#8, 0x81#8]).setFlash { State.reset.flash with mode := .pageProgram }))).map
        (fun t => t.flash.pageBuf.take 3) = some [0x80#8, 0x81#8, 0x00#8] := by decide +kernel
theorem test_pageLoad_V82 :
    (nextOf (exec (.flashDmaRead 0 0x100 127) (inMode .pageProgram))).map (fun t => t.fault.flash) =
      some (some .flashDmaShape) := by decide +kernel
theorem test_program_V80 :
    flashBytes (fl 0xA5000081#32 (State.reset.setFlash { State.reset.flash with
      pageBuf := (List.range 128).map (fun i => BitVec.ofNat 8 (0x80 + i)) })) 0x407F 3 =
      some [0xFF#8, 0x80#8, 0x81#8] := by decide +kernel
theorem test_program_V83 :
    (nextOf (fl 0xA5000400#32 State.reset)).map (fun t => t.fault.flash) = some (some .flashRange) := by decide +kernel
theorem test_siliconId_V84 :
    dramBytesAfter (exec (.flashDmaWrite 0 0x40 8) (inMode .readSiliconId)) 0x40 8 =
      some [0x11#8, 0x11#8, 0x80#8, 0x01#8, 0x00#8, 0xC2#8, 0x00#8, 0x1E#8] := by decide +kernel
/-- V88: a chip outside the remap set. V89: a doubling chip, `base = 0x1FFFE`, the last two bytes are clamp zeros. -/
theorem test_arrayRead_V88_V89 :
    (dramBytesAfter (exec (.flashDmaWrite 0x0180 0x40 1) (State.reset.setFlash { State.reset.flash with
      siliconId1 := 0x003200F1#32, store := ⟨131072, [(0x180, 0x80#8), (0x300, 0x00#8)]⟩ })) 0x40 1 =
      some [0x80#8]) ∧
    (dramBytesAfter (exec (.flashDmaWrite 0xFFFF 0x40 4) (State.reset.setFlash { State.reset.flash with
      store := ⟨131072, [(0x1FFFE, 0xFE#8)]⟩ })) 0x40 4 = some [0xFE#8, 0xFF#8, 0x00#8, 0x00#8]) := by decide +kernel
theorem test_unknownCommand_V91 :
    sent (fl 0x12345678#32 State.reset) =
      some ([.fatal .flashUnknownCommand (.value 0x12345678#32)], ⟨none, some .flashUnknownCommand, none, none⟩) := by
  decide +kernel
theorem test_partialWrite_V93 :
    (nextOf (exec (.flashMmioWrite 0x10000 0xD2000000#32 0xFF000000#32) State.reset)).map
      (fun t => (t.fault.flash, t.flash.mode)) = some (some .flashMmioShape, .readArray) := by decide +kernel

/-! ### SRAM -/

theorem test_sramRead_V101_V103 :
    (sent (exec (.sramMmioRead 0) (sramAt 2 0 [0xAB#8, 0xCD#8])) = some ([.returned 0xABCDFFFF#32], clear)) ∧
    (sent (exec (.sramMmioRead 0x8010) (sramAt 32768 0x10 [0xAA#8, 0x22#8, 0x33#8, 0xDD#8])) =
      some ([.returned 0xAA2233DD#32], clear)) := by decide +kernel
theorem test_sramWrite_V102 :
    sramAfter (exec (.sramMmioWrite 0x10 0x11223344#32 0x00FFFF00#32)
      (sramAt 32768 0x10 [0xAA#8, 0xBB#8, 0xCC#8, 0xDD#8])) 0x10 4 =
      some ([0xAA#8, 0x22#8, 0x33#8, 0xDD#8], 32768, true) := by decide +kernel
theorem test_sramWrite_V104 :
    sramAfter (exec (.sramMmioWrite 0x7FFC 0x01020304#32 0xFFFFFFFF#32) (sramAt 0 0 [])) 0x7FFB 5 =
      some ([0xFF#8, 0x01#8, 0x02#8, 0x03#8, 0x04#8], 32768, true) := by decide +kernel
theorem test_sramMisaligned_V105 :
    (nextOf (exec (.sramMmioRead 2) State.reset)).map (fun t => (t.fault.sram, t.sram.store.len)) =
      some (some .sramMisaligned, 0) := by decide +kernel
theorem test_sramDmaRead_V106 :
    sramAfter (exec (.sramDmaRead 0x7FFE 0x200 4) (dramAt 0x200 [0xDE#8, 0xAD#8, 0xBE#8, 0xEF#8])) 0x7FFD 4 =
      some ([0xFF#8, 0xDE#8, 0xAD#8, 0x00#8], 32768, true) := by decide +kernel
theorem test_sramDmaRead_V109 :
    sramAfter (exec (.sramDmaRead 0 0 0) State.reset) 0 1 = some ([0xFF#8], 32768, true) := by decide +kernel
theorem test_sramDmaWrite_V107 :
    dramBytesAfter (exec (.sramDmaWrite 0x7FFE 0x300 4) (sramAt 32768 0x7FFE [0xDE#8, 0xAD#8])) 0x300 4 =
      some [0xDE#8, 0xAD#8, 0x00#8, 0x00#8] := by decide +kernel

/-! ### VRU -/

/-- Reset with a `WRITE_CONFIG` frame at 0 on channel 3 whose window ends in `b`. -/
def configFrame (b : Byte) (v : VoiceState) (talking : Bool) (timeout : Option Nat) : State :=
  ({ pifAt 0 [0x0C#8, 0x00#8, 0x00#8, 0x00#8, 0x00#8, 0x00#8, b] with now := 100 }.setVru
    { State.reset.vru with voiceState := v, talking := talking }).setVruTimeout timeout

theorem test_vruReset_V120 :
    (nextOf (exec (.reset 3 0 (some 3)) (withRegion 0x4A#8 State.reset))).map (fun t => t.vru.voiceState) =
      some .ready := by decide +kernel
theorem test_vruReset_V122 :
    (nextOf (exec (.reset 3 0 (some 3)) (withRegion 0x45#8 State.reset))).map (fun t => t.vru.voiceState) =
      some .start := by decide +kernel
theorem test_writeConfig_V123 :
    (nextOf (present (.pifProcess 3 (some 0) (some 0x20)) (configFrame 0x1D#8 .start false none))).map
      (fun t => (t.vru.talking, t.vru.voiceState, t.events.vruTimeout)) = some (true, .busy, some 187500100) := by
  decide +kernel
theorem test_writeConfig_V124 :
    (nextOf (present (.pifProcess 3 (some 0) (some 0x20)) (configFrame 0x91#8 .busy true (some 5)))).map
      (fun t => (t.vru.talking, t.vru.voiceState, t.events.vruTimeout)) = some (false, .ready, none) := by
  decide +kernel
theorem test_vruTimeout_V125 :
    (nextOf (exec .vruTimeoutEvent (configFrame 0x1D#8 .busy true (some 5)))).map
      (fun t => (t.vru.talking, t.vru.voiceState, t.events.vruTimeout)) = some (false, .ready, none) := by
  decide +kernel
theorem test_vruTimeout_V126 :
    exec .vruTimeoutEvent (configFrame 0x91#8 .ready false none) = .refused (.eventNotPending .vruTimeout) := rfl
theorem test_vruRead_V128 :
    sent (present (.pifProcess 3 (some 0) (some 3)) (pifAt 0 [0x09#8])) = some ([.vruIndex 0x7FFF], clear) := by
  decide +kernel
theorem test_vruReadStatus_appends_or_not :
    ((nextOf (exec (.vruReadStatus 3 0 (some 3)) (withRegion 0x4A#8 State.reset))).map
      (fun t => (t.vru.words.length ≤ 1 : Bool))) = some true := by
  cases h : Config.vruWordsPending 0 <;>
    simp [nextOf, exec, execVruReadStatus, withVruFrame, withFrame, pifGate, withRegion, State.reset, frameStart,
      State.device, Config.defaultParams, Quad.get, Quad.all, h, decodedWord, isJapanOrDemo, vruStatusAnswer, State.setVru,
      State.putPif, State.setPif, State.nextDraw]
theorem test_vruWrite_stops : exec (.vruWrite 3 0 (some 3)) State.reset = .refused .vruWriteOpen := rfl
theorem test_vruWriteInit_stops : exec (.vruWriteInit 3 0 (some 3)) State.reset = .refused .vruWriteInitOpen := rfl

/-! ### Platform -/

/-- R225, R39: latches, events and the FlashRAM defaults; the store is kept where none is handed over, and is clean. -/
theorem test_deviceReset :
    (nextOf (exec .deviceReset { switching with
      fault := ⟨none, some .flashRange, some .sramMisaligned, none⟩
      flash := { switching.flash with status := 9#32, mode := .status, store := ⟨2, []⟩, written := true } })).map
        (fun t => (t.fault, t.events, t.chan.c2, t.flash)) =
      some (clear, ⟨none, none⟩, ⟨none, none⟩, ⟨0#32, .readArray, 0#16, List.replicate 128 0x00#8, 0x11118001#32,
        0x00C2001E#32, ⟨2, []⟩, false⟩) := by decide +kernel
/-- R229: a store handed over, short. -/
theorem test_deviceReset_handover :
    (nextOf (exec .deviceReset { State.reset with handover := ⟨none, some ⟨3, [(1, 0x22#8)]⟩⟩ })).map
      (fun t => t.sram) = some ⟨⟨3, [(1, 0x22#8)]⟩, false⟩ := by decide +kernel
/-- R231, D35: the persisted fields and the kinds, nothing else. -/
theorem test_loadState :
    (nextOf (exec (.loadState saved) switching)).map
      (fun t => (t.flash.status, t.vru.words, t.chan.c0, t.chan.c2)) =
      some (0x0C#32, ["go"], ⟨some .rumblePak, none⟩, ⟨some .memPak, some .transferPak⟩) := by decide +kernel

/-! ### Witnesses: states and operands that meet the hypotheses of each statement, clause by clause -/

theorem reset_wf : State.reset.WF := wf_of _ (by decide +kernel)

theorem test_witness_StepKeepsWellFormed :
    (facing (.op (.bus (.loadState saved))) State.reset).WF ∧
      ∃ t, step (facing (.op (.bus (.loadState saved))) State.reset) = .next t :=
  ⟨wf_of _ (by decide +kernel), completes (by decide +kernel)⟩

theorem test_witness_StepKeepsSwitchPending :
    switching.SwitchPending ∧ (switching.chan.get 2).changePak ≠ none ∧
      ∃ t, step (facing (.op (.bus .pakSwitchEvent)) switching) = .next t :=
  ⟨(fun _ _ h => nomatch h), by decide, _, rfl⟩

theorem test_witness_StepKeepsEraseBusyClear :
    (facing (.op (.bus .deviceReset)) (inMode .chipErase)).WF ∧
      (facing (.op (.bus .deviceReset)) (inMode .chipErase)).nextIsNoLoad = true ∧
      (facing (.op (.bus .deviceReset)) (inMode .chipErase)).EraseBusyClear ∧
      ∃ t, step (facing (.op (.bus .deviceReset)) (inMode .chipErase)) = .next t :=
  ⟨wf_of _ (by decide +kernel), rfl, by show _ = _; decide, _, rfl⟩

/-- Talking, with the timeout armed. -/
def talkingState : State := configFrame 0x91#8 .busy true (some 5)

theorem test_witness_StepKeepsTimeoutWhileTalking :
    (facing (.op (.bus .vruTimeoutEvent)) talkingState).nextIsNoLoad = true ∧
      (facing (.op (.bus .vruTimeoutEvent)) talkingState).TimeoutWhileTalking ∧
      talkingState.events.vruTimeout ≠ none ∧
      ∃ t, step (facing (.op (.bus .vruTimeoutEvent)) talkingState) = .next t :=
  ⟨rfl, fun _ => rfl, by decide, _, rfl⟩

theorem test_witness_DecodeAndEncodeAgree :
    (Instr.flSectorEraseMode 0xFFFF#16).wellFormed = true ∧
      decode (.jcmd .vru 3 63 none 0x0D#8) = .ok (.vruWriteInit 3 63 none) ∧
      decode (.flcmd 0x4BFFFFFF#32) = .ok (.flSectorEraseMode 0xFFFF#16) ∧
      decode (.busop (.installPak 3 .memPak)) = .ok (.installPak 3 .memPak) := by decide

theorem test_witness_CodesOutsideTheMapsAreRejected :
    flOpcode 0x3BFFFFFF#32 ∉ [0x3C#8, 0x4B#8, 0x78#8, 0xA5#8, 0xB4#8, 0xD2#8, 0xE1#8, 0xF0#8] ∧
      (0x04#8 : Byte) ∉ [0x00#8, 0x01#8, 0x02#8, 0x03#8, 0xFF#8] ∧
      (0xFE#8 : Byte) ∉ [0x00#8, 0x01#8, 0x02#8, 0x03#8, 0xFF#8, 0x09#8, 0x0A#8, 0x0B#8, 0x0C#8, 0x0D#8] := by decide

/-- A frame command at the last byte of PIF RAM, an unknown one. -/
def lastByte (b : Byte) : State := facing (.op (.pifProcess 0 (some 63) none)) (pifAt 63 [b])

theorem test_witness_StepRunsTheFrameCommand :
    (lastByte 0x00#8).inbox = .op (.pifProcess 0 (some 63) none) :: [] ∧ pifGate 0 (lastByte 0x00#8) = none ∧
      63 < (lastByte 0x00#8).pif.len ∧
      decode (.jcmd ((lastByte 0x00#8).device 0) 0 63 none ((lastByte 0x00#8).pifByte 63)) =
        .ok (.status 0 63 none) := ⟨rfl, rfl, by decide, rfl⟩

theorem test_witness_StepRunsTheBusOperation :
    (facing (.op (.bus (.sramMmioRead 4))) State.reset).inbox = .op (.bus (.sramMmioRead 4)) :: [] ∧
      decode (fetchBus (.sramMmioRead 4)) = .ok (.sramMmioRead 4) ∧ 0x30000 % 131072 = 0x10000 := ⟨rfl, rfl, rfl⟩

theorem test_witness_UnknownCommandIsLoggedOnly :
    ∀ b ∈ [0x04#8, 0xFE#8],
      (lastByte b).inbox = .op (.pifProcess 0 (some 63) none) :: [] ∧ (lastByte b).fault.pif = none ∧
        (lastByte b).device 0 = .controller ∧ 63 < (lastByte b).pif.len ∧
        0x04 ≤ ((lastByte b).pifByte 63).toNat ∧ ((lastByte b).pifByte 63).toNat ≤ 0xFE := by decide +kernel

theorem test_witness_BrokenFrameContract_tx :
    (facing (.op (.pifProcess 0 (some 64) none)) State.reset).inbox = .op (.pifProcess 0 (some 64) none) :: [] ∧
      pifGate 0 (facing (.op (.pifProcess 0 (some 64) none)) State.reset) = none ∧
      ∀ t, some 64 = some t → State.reset.pif.len ≤ t := ⟨rfl, rfl, fun _ h => by cases h; exact Nat.le_refl _⟩
theorem test_witness_BrokenFrameContract_footprint :
    State.reset.fault.pif = none ∧ State.reset.device 0 = .controller ∧ State.reset.pif.len < 62 + 3 ∧
      State.reset.pif.len < 61 + 4 ∧ State.reset.pif.len < 32 + 33 ∧ State.reset.pif.len < 30 + 35 ∧
      State.reset.pif.len < 64 + 1 := by decide
theorem test_witness_BrokenFrameContract_vru :
    State.reset.fault.pif = none ∧ State.reset.fault.vru = none ∧ State.reset.device 3 = .vru ∧
      State.reset.pif.len < 64 + 1 ∧ State.reset.pif.len < 62 + 3 ∧
      State.reset.pif.len < 29 + State.reset.params.vruReadLen ∧ State.reset.params.vruReadLen ≠ 0 ∧
      State.reset.pif.len < vruWindowStart State.reset.params 58 + 4 := by decide

theorem test_witness_StatusAndResetAnswer :
    State.reset.WF ∧ FrameReady .controller 1 63 61 1 3 State.reset :=
  ⟨reset_wf, rfl, rfl, (fun h => nomatch h), by decide, by decide⟩
theorem test_witness_VruStatusAndResetAnswer :
    State.reset.WF ∧ FrameReady .vru 3 63 61 1 3 State.reset :=
  ⟨reset_wf, rfl, rfl, fun _ => rfl, by decide, by decide⟩

/-- A gesture on channel 0, with a pak or with none, and with the policy `g`. -/
def gesturing (k : Option PakKind) (g : GesturePolicy) : State :=
  { polled 0x80000000#32 true (State.reset.setChan 0 ⟨k, none⟩) with
    params := { State.reset.params with gestureWithoutPak := g } }

theorem gesturing_wf (k : Option PakKind) (g : GesturePolicy) : (gesturing k g).WF :=
  { reset_wf with params := reset_wf.params }

theorem test_witness_ControllerReadAnswersInput :
    State.reset.WF ∧ FrameReady .controller 0 63 60 1 4 State.reset ∧
      (State.reset.ui.poll.get 0).gesture = false ∧ switching.events.pakSwitch ≠ none ∧
      (gesturing (some .memPak) .refuse).handler 0 ≠ none :=
  ⟨reset_wf, ⟨rfl, rfl, (fun h => nomatch h), by decide, by decide⟩, rfl, by decide, by decide⟩
theorem test_witness_GestureStartsPakSwitch :
    ∀ k ∈ [some PakKind.memPak, none], ∀ g ∈ [GesturePolicy.refuse, .ignore, .schedule, .fatal],
      (gesturing k g).WF ∧ FrameReady .controller 0 63 60 1 4 (gesturing k g) ∧
        ((gesturing k g).ui.poll.get 0).gesture = true ∧ (gesturing k g).events.pakSwitch = none ∧
        (gesturing k g).handler 0 = k ∧ (gesturing k g).params.gestureWithoutPak = g :=
  fun _ _ _ _ => ⟨gesturing_wf _ _, ⟨rfl, rfl, (fun h => nomatch h), Nat.le_refl 64, Nat.le_refl 64⟩, rfl, rfl, rfl, rfl⟩
theorem test_witness_PakRead :
    ∀ k ∈ [some PakKind.transferPak, none],
      (gesturing k .refuse).WF ∧ FrameReady .controller 0 61 31 3 33 (gesturing k .refuse) ∧
        (gesturing k .refuse).handler 0 = k :=
  fun _ _ => ⟨gesturing_wf _ _, ⟨rfl, rfl, (fun h => nomatch h), Nat.le_refl 64, Nat.le_refl 64⟩, rfl⟩
theorem test_witness_PakWriteSealsTheData :
    ∀ k ∈ [some PakKind.rumblePak, none],
      (gesturing k .refuse).WF ∧ FrameReady .controller 0 29 63 35 1 (gesturing k .refuse) ∧
        (gesturing k .refuse).handler 0 = k :=
  fun _ _ => ⟨gesturing_wf _ _, ⟨rfl, rfl, (fun h => nomatch h), Nat.le_refl 64, Nat.le_refl 64⟩, rfl⟩
theorem test_witness_PakAddressForm : (0x1B#8 : Byte) &&& 0xE0#8 = 0x00#8 &&& 0xE0#8 := by decide
theorem test_witness_NoPakSentinel_write :
    ∃ t u, State.reset.WF ∧
      exec (.pakWrite 0 0 (some 63)) (State.reset.setChan 0 ⟨some .memPak, none⟩) = .next t ∧
      exec (.pakWrite 0 0 (some 63)) (State.reset.setChan 0 ⟨none, none⟩) = .next u ∧ t.fault = State.reset.fault :=
  ⟨_, _, reset_wf, rfl, rfl, rfl⟩
theorem test_witness_NoPakSentinel_read :
    ∃ t u, State.reset.WF ∧
      exec (.pakRead 0 0 (some 31)) (State.reset.setChan 0 ⟨some .memPak, none⟩) = .next t ∧
      exec (.pakRead 0 0 (some 31)) (State.reset.setChan 0 ⟨none, none⟩) = .next u ∧ t.fault = State.reset.fault :=
  ⟨_, _, reset_wf, rfl, rfl, rfl⟩
theorem test_witness_OnVru :
    State.reset.fault.pif = none ∧ State.reset.fault.vru = none ∧ State.reset.device 3 = .vru := ⟨rfl, rfl, rfl⟩

theorem test_witness_PakSwitchEventRotates :
    switching.fault.pif = none ∧ switching.events.pakSwitch = some 93750500 ∧
      (switching.chan.get 2).changePak = some .transferPak ∧ (switching.chan.get 0).changePak = none :=
  ⟨rfl, rfl, rfl, rfl⟩
theorem test_witness_InstallPak :
    switching.fault.pif = none ∧ (switching.chan.get 0).changePak = none ∧
      (switching.chan.get 2).changePak = some .transferPak := ⟨rfl, rfl, rfl⟩

/-- Reset with the FlashRAM device in mode `m`, target page `p`. -/
def erasing (m : FlashMode) (p : Half) : State :=
  State.reset.setFlash { State.reset.flash with mode := m, erasePage := p }

theorem erasing_wf (m : FlashMode) (p : Half) : (erasing m p).WF :=
  { reset_wf with flash := reset_wf.flash, pageBuf := reset_wf.pageBuf }

theorem test_witness_FlashReady : State.reset.fault.flash = none := rfl
theorem test_witness_FlashModeWords :
    flOpcode 0x3CFFFFFF#32 = 0x3C#8 ∧ flOpcode 0x4B00FFFF#32 = 0x4B#8 ∧ flOpcode 0xB4FFFFFF#32 = 0xB4#8 ∧
      flOpcode 0xD2FFFFFF#32 = 0xD2#8 ∧ flOpcode 0xF0FFFFFF#32 = 0xF0#8 ∧ flOpcode 0xE1FFFFFF#32 = 0xE1#8 := by decide
theorem test_witness_SiliconIdMode_then_status :
    ∃ t u, exec .flReadSiliconIdMode State.reset = .next t ∧ exec .flStatusMode t = .next u := ⟨_, _, rfl, rfl⟩
theorem test_witness_SiliconIdMode_keeps :
    paramsOk State.reset.params = true ∧
      (State.reset.setFlash { State.reset.flash with status := 1#32 }).flash.status.getLsbD
        State.reset.params.programBusyBit.val = true ∧
      ∃ t, exec .flEraseExecute (State.reset.setFlash { State.reset.flash with status := 1#32 }) = .next t :=
  ⟨by decide, by decide, completes (by decide +kernel)⟩
theorem test_witness_SectorErase :
    (erasing .sectorErase 0x03FF#16).WF ∧ (erasing .sectorErase 0x03FF#16).fault.flash = none ∧
      (erasing .sectorErase 0x03FF#16).flash.mode = .sectorErase ∧
      ((erasing .sectorErase 0x03FF#16).flash.erasePage.toNat &&& 0xFF80) ≤ 0x0380 :=
  ⟨erasing_wf _ _, rfl, rfl, by decide⟩
theorem test_witness_ChipErase :
    (erasing .chipErase 0#16).WF ∧ (erasing .chipErase 0#16).fault.flash = none ∧
      (erasing .chipErase 0#16).flash.mode = .chipErase := ⟨erasing_wf _ _, rfl, rfl⟩
theorem test_witness_EraseOutside :
    ∀ m ∈ [FlashMode.readArray, .readSiliconId, .status, .pageProgram],
      (erasing m 0#16).WF ∧ (erasing m 0#16).fault.flash = none ∧ (erasing m 0#16).flash.mode ≠ .sectorErase ∧
        (erasing m 0#16).flash.mode ≠ .chipErase := by
  intro m hm
  refine ⟨erasing_wf _ _, rfl, ?_⟩
  revert m
  decide
theorem test_witness_Program :
    State.reset.WF ∧ State.reset.fault.flash = none ∧ (0x03FF#16 : Half).toNat ≤ 0x03FF :=
  ⟨reset_wf, rfl, by decide⟩
theorem test_witness_TargetsBeyond :
    (erasing .sectorErase 0x0400#16).fault.flash = none ∧
      (erasing .sectorErase 0x0400#16).flash.mode = .sectorErase ∧
      0x0380 < ((erasing .sectorErase 0x0400#16).flash.erasePage.toNat &&& 0xFF80) ∧
      0x03FF < (0x0400#16 : Half).toNat := ⟨rfl, rfl, by decide, by decide⟩
theorem test_witness_FlashWriteRunsTheCommand :
    (erasing .sectorErase 0x0380#16).fault.flash = none ∧ 0x3FFFF % 131072 ≠ 0x10000 ∧ 0x30000 % 131072 = 0x10000 ∧
      decode (.flcmd 0x78000000#32) = .ok .flEraseExecute ∧
      ((erasing .sectorErase 0x0380#16).flash.erasePage.toNat &&& 0xFF80) ≤ 0x0380 ∧
      decode (.flcmd 0xA50003FF#32) = .ok (.flProgramExecute 0x03FF#16) ∧ (0x03FF#16 : Half).toNat ≤ 0x03FF := by
  decide
theorem test_witness_IllegalFlashShapes :
    State.reset.fault.flash = none ∧ 0x10001 % 131072 ≠ 0x10000 ∧ (0xFFFFFFFE#32 : Word) ≠ 0xFFFFFFFF#32 ∧
      flOpcode 0x3D000000#32 ∉ [0x3C#8, 0x4B#8, 0x78#8, 0xA5#8, 0xB4#8, 0xD2#8, 0xE1#8, 0xF0#8] ∧
      0x10000 % 131072 ≠ 0 ∧ (inMode .chipErase).flash.mode ≠ .status ∧ (inMode .chipErase).flash.mode ≠ .readArray ∧
      (inMode .status).flash.mode ≠ .pageProgram ∧ 127 ≠ 128 ∧
      ¬((inMode .readSiliconId).flash.mode = .readSiliconId ∧ 0 % 131072 = 0 ∧ 9 = 8) ∧
      ¬((inMode .readArray).flash.mode = .readArray ∧ 0x10000 < 0x10000) := by decide
theorem test_witness_FlashRead :
    (inMode .status).fault.flash = none ∧ (inMode .status).flash.mode = .status ∧
      (inMode .readArray).flash.mode = .readArray ∧ 0x20000 % 131072 = 0 := ⟨rfl, rfl, rfl, rfl⟩
theorem test_witness_PageLoad :
    (inMode .pageProgram).fault.flash = none ∧ (inMode .pageProgram).flash.mode = .pageProgram := ⟨rfl, rfl⟩
theorem test_witness_SiliconIdReadout :
    (erasing .readSiliconId 0#16).WF ∧ (erasing .readSiliconId 0#16).fault.flash = none ∧
      (erasing .readSiliconId 0#16).flash.mode = .readSiliconId ∧ 0x20000 % 131072 = 0 ∧
      (0x3FFFFC + 3) ^^^ State.reset.params.dramIndexXor < State.reset.dram.len :=
  ⟨erasing_wf _ _, rfl, rfl, rfl, by decide⟩
theorem test_witness_ArrayRead :
    State.reset.WF ∧ State.reset.fault.flash = none ∧ State.reset.flash.mode = .readArray ∧ 0xFFFF < 0x10000 :=
  ⟨reset_wf, rfl, rfl, by decide⟩
theorem test_witness_SuccessBits :
    paramsOk State.reset.params = true ∧
      (∃ t, exec .flReadSiliconIdMode (State.reset.setFlash { State.reset.flash with status := 0x1C#32 }) = .next t) ∧
      (State.reset.setFlash { State.reset.flash with status := 0x1C#32 }).flash.status.getLsbD
        State.reset.params.eraseSuccessBit.val = true ∧
      (4 : Fin 32) ∉ [State.reset.params.eraseSuccessBit, State.reset.params.programSuccessBit,
        State.reset.params.eraseBusyBit, State.reset.params.programBusyBit] :=
  ⟨by decide, completes (by decide +kernel), by decide, by decide⟩

theorem test_witness_SramAccess :
    State.reset.WF ∧ State.reset.fault.sram = none ∧ 0x7FFC % 4 = 0 ∧ 0x7FFD % 4 ≠ 0 :=
  ⟨reset_wf, rfl, by decide, by decide⟩

/-- A VRU prompt about to be answered with `w`. -/
def prompting (w : String) : State :=
  { State.reset with
    ui := ⟨true, Quad.all ⟨0#32, false⟩, w⟩
    vru := { State.reset.vru with words := ["stop", "go"] } }

theorem test_witness_VruReadWithoutUi :
    FrameReady .vru 3 63 28 1 State.reset.params.vruReadLen State.reset ∧ State.reset.ui.attached = false ∧
      ({ prompting "go" with params := { State.reset.params with netplay := true } } : State).params.netplay = true :=
  ⟨⟨rfl, rfl, fun _ => rfl, by decide, by decide⟩, rfl, rfl⟩
theorem test_witness_VruReadAnswers :
    (prompting "go").WF ∧ FrameReady .vru 3 63 28 1 (prompting "go").params.vruReadLen (prompting "go") ∧
      (prompting "go").ui.attached = true ∧ (prompting "go").params.netplay = false ∧
      (prompting "").ui.choice = "" ∧ (prompting "go").ui.choice ≠ "" ∧
      (prompting "go").vru.words[1]? = some (prompting "go").ui.choice ∧
      ∀ m, m < 1 → (prompting "go").vru.words[m]? ≠ some (prompting "go").ui.choice :=
  ⟨wf_of _ (by decide +kernel), ⟨rfl, rfl, fun _ => rfl, by decide, by decide⟩, rfl, rfl, rfl, by decide, by decide,
    by decide⟩
/-- A dictionary that has the code of the reset buffer, and no dictionary; whether words are pending is a free value,
so that one of the two cases of the statement holds and neither can be shown to. -/
theorem test_witness_VruReadStatus :
    (withRegion 0x4A#8 State.reset).WF ∧
      FrameReady .vru 3 63 61 1 (withRegion 0x4A#8 State.reset).params.vruReadStatusLen (withRegion 0x4A#8 State.reset) ∧
      (withRegion 0x4A#8 State.reset).params.romRegion = 0x4A#8 ∧
      State.reset.params.romRegion ≠ 0x4A#8 ∧ State.reset.params.romRegion ≠ 0x00#8 ∧
      (Config.vruWordsPending State.reset.draws = true ∨ Config.vruWordsPending State.reset.draws = false) ∧
      List.lookup (Config.vruHexCode State.reset.vru.wordBuffer)
        [(Config.vruHexCode State.reset.vru.wordBuffer, "go")] = some "go" ∧
      State.reset.params.wordMappings.lookup (Config.vruHexCode State.reset.vru.wordBuffer) = none :=
  ⟨wf_of _ (by decide +kernel), ⟨rfl, rfl, fun _ => rfl, by decide, by decide⟩, rfl, by decide, by decide,
    by cases Config.vruWordsPending State.reset.draws <;> simp, by simp, rfl⟩
/-- The three values of the window: `0x4E`, `0xEF` and another; a window that ends at the last byte. -/
theorem test_witness_VruWriteConfig :
    State.reset.WF ∧ FrameReady .vru 3 57 63 1 State.reset.params.vruWriteConfigLen State.reset ∧
      vruWindowStart State.reset.params 57 + 4 ≤ State.reset.pif.len ∧
      crcBytes ((List.range 4).map (fun n => (configFrame 0x1D#8 .start false none).pifByte (3 + n))) = 0x4E#8 ∧
      crcBytes ((List.range 4).map (fun n => (configFrame 0x91#8 .busy true none).pifByte (3 + n))) = 0xEF#8 ∧
      crcBytes ((List.range 4).map (fun n => State.reset.pifByte (60 + n))) = 0x00#8 :=
  ⟨reset_wf, ⟨rfl, rfl, fun _ => rfl, by decide, by decide⟩, by decide, by decide +kernel, by decide +kernel,
    by decide +kernel⟩
theorem test_witness_VruTimeout :
    talkingState.fault.vru = none ∧ talkingState.events.vruTimeout = some 5 := ⟨rfl, rfl⟩

theorem test_witness_DeviceReset :
    State.reset.handover.flash = none ∧
      ({ State.reset with handover := ⟨some ⟨1, []⟩, some ⟨0, []⟩⟩ } : State).handover.sram = some ⟨0, []⟩ := ⟨rfl, rfl⟩
theorem test_witness_LoadState :
    State.reset.fault = clear ∧ saved.flashPageBuf.length = 128 ∧ saved.vruWordBuffer.length = 40 ∧
      (List.replicate 127 0x00#8).length ≠ 128 ∧ (List.replicate 41 0).length ≠ 40 := by
  refine ⟨rfl, ?_, ?_, ?_, ?_⟩ <;> simp [saved]

/-- Reset with one latch set in each subsystem. -/
def latched : State :=
  { State.reset with
    fault := ⟨some .pifContract, some .flashRange, some .sramMisaligned, some .vruUnmappedWord⟩ }

theorem test_witness_LatchesAreSticky :
    (∃ t, exec (.sramMmioRead 2) (State.reset.setFault ⟨some .pifContract, none, none, none⟩) = .next t) ∧
      latchOf (State.reset.setFault ⟨some .pifContract, none, none, none⟩).fault .pif = some .pifContract :=
  ⟨⟨_, rfl⟩, rfl⟩
theorem test_witness_FatalsArePrecise :
    ∃ t, exec (.sramMmioRead 2) State.reset = .next t ∧ t.fault ≠ State.reset.fault := ⟨_, rfl, by decide⟩
theorem test_witness_Latched :
    latched.fault.pif = some .pifContract ∧ latched.fault.flash = some .flashRange ∧
      latched.fault.sram = some .sramMisaligned ∧ latched.fault.vru = some .vruUnmappedWord ∧
      State.reset.events.pakSwitch = none ∧ State.reset.events.vruTimeout = none := ⟨rfl, rfl, rfl, rfl, rfl, rfl⟩
/-- One latch alone, of the flash or of the VRU subsystem. -/
def latchedOnly (f v : Option FatalKind) : State := State.reset.setFault ⟨none, f, none, v⟩
theorem test_witness_Latched_one :
    (latchedOnly none (some .vruUnmappedWord)).fault.pif = none ∧
      (latchedOnly none (some .vruUnmappedWord)).fault.flash = none ∧
      (latchedOnly none (some .vruUnmappedWord)).fault.vru = some .vruUnmappedWord ∧
      (latchedOnly none (some .vruUnmappedWord)).device 3 = .vru ∧
      (latchedOnly (some .flashRange) none).fault.pif = none ∧
      (latchedOnly (some .flashRange) none).fault.flash = some .flashRange := ⟨rfl, rfl, rfl, rfl, rfl, rfl⟩
theorem test_witness_OperationsLeave :
    (∃ t, exec .flReadArrayMode { State.reset with sram := ⟨⟨0, []⟩, true⟩ } = .next t) ∧
      ({ State.reset with sram := ⟨⟨0, []⟩, true⟩ } : State).sram.written = true := ⟨⟨_, rfl⟩, rfl⟩
theorem test_witness_OnlyFlashCommands :
    ∃ t, exec .flStatusMode State.reset = .next t ∧ t.flash.mode ≠ State.reset.flash.mode := ⟨_, rfl, by decide⟩
theorem test_witness_CrcOfZeros : ∀ k, k < 4 → State.reset.pif.read .pif (60 + k) = 0x00#8 := by decide
theorem test_witness_CanonicalMemories :
    Memory.wf .flash ⟨3, [(0, 0x00#8), (2, 0xFE#8)]⟩ = true ∧ Memory.wf .flash ⟨3, [(0, 0xFF#8)]⟩ = false ∧
      Memory.wf .flash ⟨3, [(3, 0x00#8)]⟩ = false := by decide

end Sys2Proof.Tests
end

section
/-! The pak address (30_encoding.md R64). -/

namespace Sys2Proof.Machine

/-- The address as two bytes side by side: no bit of `byte0` meets a bit of `byte1`. -/
theorem pakAddress_eq_append (b0 b1 : Byte) : pakAddress b0 b1 = b0 ++ (b1 &&& 0xE0#8) := by
  rw [pakAddress, BitVec.append_def, BitVec.shiftLeftZeroExtend_eq, BitVec.setWidth'_eq]

theorem pakAddress_toNat (b0 b1 : Byte) :
    (pakAddress b0 b1).toNat = b0.toNat * 256 + (b1.toNat &&& 0xE0) := by
  have hlow : b1.toNat &&& 0xE0 < 2 ^ 8 := Nat.and_lt_two_pow _ (by decide)
  calc (pakAddress b0 b1).toNat
      = b0.toNat <<< 8 ||| (b1.toNat &&& 0xE0) := by
        rw [pakAddress_eq_append, BitVec.toNat_append, BitVec.toNat_and]; rfl
    _ = b0.toNat <<< 8 + (b1.toNat &&& 0xE0) := (Nat.shiftLeft_add_eq_or_of_lt hlow _).symm
    _ = b0.toNat * 256 + (b1.toNat &&& 0xE0) := by rw [Nat.shiftLeft_eq]

theorem pakAddress_mod_32 (b0 b1 : Byte) : (pakAddress b0 b1).toNat % 32 = 0 := by
  have hmask : (b1.toNat &&& 0xE0) % 2 ^ 5 = 0 := by
    rw [Nat.and_mod_two_pow, show 0xE0 % 2 ^ 5 = 0 from rfl, Nat.and_zero]
  rw [pakAddress_toNat]
  omega

theorem pakAddress_congr_masked (b0 : Byte) {b1 b1' : Byte} (h : b1' &&& 0xE0#8 = b1 &&& 0xE0#8) :
    pakAddress b0 b1' = pakAddress b0 b1 := by
  rw [pakAddress_eq_append, pakAddress_eq_append, h]

@[simp] theorem pakCall_address (k : PakKind) (c : Channel) (tx off : Nat) (s : State) :
    (pakCall k c tx off s).address = pakAddress (s.pifByte (tx + 1)) (s.pifByte (tx + 2)) := rfl

/-- Settles O20: the address is `byte0` beside the masked `byte1`, and the call is built from the frame's header. -/
theorem pakAddressForm : Obligations.PakAddressForm :=
  ⟨fun b0 b1 => ⟨pakAddress_toNat b0 b1, pakAddress_mod_32 b0 b1, fun _ h => pakAddress_congr_masked b0 h⟩,
    pakCall_address⟩

end Sys2Proof.Machine
end

section
/-! The CRC of zero bytes (40_crc8.md R84). -/

namespace Sys2Proof.Machine

theorem crcBytes_replicate_zero (n : Nat) : crcBytes (List.replicate n 0x00#8) = 0x00#8 := by
  induction n with
  | zero => exact crcBytes_nil
  | succ n ih => rw [List.replicate_succ, crcBytes_zero_cons, ih]

theorem Memory.bytes_eq_replicate {sp : Space} {m : Memory} {off n : Nat} {b : Byte}
    (h : ∀ k, k < n → m.read sp (off + k) = b) : m.bytes sp off n = List.replicate n b := by
  refine List.eq_replicate_iff.mpr ⟨Memory.bytes_length sp m off n, fun c hc => ?_⟩
  obtain ⟨k, hk, rfl⟩ := List.mem_map.mp hc
  exact h k (List.mem_range.mp hk)

theorem crc8_eq_zero {sp : Space} {m : Memory} {off n : Nat} (h : ∀ k, k < n → m.read sp (off + k) = 0x00#8) :
    crc8 sp m off n = 0x00#8 := by
  rw [crc8, Memory.bytes_eq_replicate h, crcBytes_replicate_zero]

/-- Settles O58: a zero byte leaves the zero register at zero, by induction on the length; a run of zero bytes of a
memory is such a sequence. -/
theorem crcOfZerosIsZero : Obligations.CrcOfZerosIsZero :=
  ⟨crcBytes_replicate_zero, fun _ _ _ _ => crc8_eq_zero⟩

end Sys2Proof.Machine
end

section
/-! The "no pak" sentinel (41_channel_dispatcher.md R97 to R99). -/

namespace Sys2Proof.Machine

/-! ### Frames of the controller commands -/

@[simp] theorem State.setChan_handler (s : State) (c : Channel) (h : Chan) :
    (s.setChan c h).handler c = h.pakHandler := by
  rw [State.handler, State.setChan_chan, Quad.get_set_same]

/-- Whether a frame is ready does not depend on what is bound to any channel. -/
theorem frameReady_setChan {d : Device} {c e : Channel} {tx r txLen rxLen : Nat} {s : State} (h : Chan) :
    FrameReady d c tx r txLen rxLen (s.setChan e h) ↔ FrameReady d c tx r txLen rxLen s := Iff.rfl

theorem raiseFatal_pifContract_fault_ne {info : FatalInfo} {s t : State} (hp : s.fault.pif = none)
    (h : raiseFatal .pifContract info s = .next t) : t.fault ≠ s.fault := by
  rw [raiseFatal_eq] at h
  cases h
  exact fun he => nomatch hp.symm.trans (congrArg Latches.pif he.symm)

/-- A controller command that completes and sets no latch ran on a frame inside PIF RAM: the contract fatal, its only
other way to a next state, sets the latch that the gate found clear. -/
theorem frameReady_of_withControllerFrame_next {c : Channel} {tx r txLen rxLen : Nat} {s t : State}
    {run : Nat → Result} (h : withControllerFrame c tx (some r) txLen rxLen s run = .next t)
    (hf : t.fault = s.fault) : FrameReady .controller c tx r txLen rxLen s := by
  obtain ⟨hvru, hframe⟩ := withControllerFrame_next h
  obtain ⟨hgate, ⟨_, hstart, -⟩ | ⟨-, hfatal⟩⟩ := withFrame_next hframe
  all_goals obtain ⟨hpif, habsent, -⟩ := pifGate_none hgate
  · have hdev : s.device c = .controller := by
      cases hd : s.device c with
      | absent => exact absurd hd habsent
      | controller => rfl
      | vru => exact absurd hd hvru
    obtain ⟨htx, ⟨hr, hrx⟩ | ⟨hnone, -⟩⟩ := frameStart_some hstart
    · cases hr
      exact ⟨hpif, hdev, (fun hd => nomatch hd), htx, hrx⟩
    · cases hnone
  · exact absurd hf (raiseFatal_pifContract_fault_ne hpif hfatal)

/-! ### `PAK_READ` and `PAK_WRITE` on a ready frame -/

theorem exec_pakRead (c : Channel) (tx : Nat) (rx : Option Nat) (s : State) :
    exec (.pakRead c tx rx) s = execPakRead c tx rx s := rfl

theorem exec_pakWrite (c : Channel) (tx : Nat) (rx : Option Nat) (s : State) :
    exec (.pakWrite c tx rx) s = execPakWrite c tx rx s := rfl

theorem frameReady_of_exec_pakRead_next {s t : State} {c : Channel} {tx r : Nat}
    (h : exec (.pakRead c tx (some r)) s = .next t) (hf : t.fault = s.fault) :
    FrameReady .controller c tx r 3 33 s := by
  rw [exec_pakRead, execPakRead] at h
  exact frameReady_of_withControllerFrame_next h hf

theorem frameReady_of_exec_pakWrite_next {s t : State} {c : Channel} {tx r : Nat}
    (h : exec (.pakWrite c tx (some r)) s = .next t) (hf : t.fault = s.fault) :
    FrameReady .controller c tx r 35 1 s := by
  rw [exec_pakWrite, execPakWrite] at h
  exact frameReady_of_withControllerFrame_next h hf

theorem exec_pakRead_of_handler {s : State} {c : Channel} {tx r : Nat} {k : PakKind}
    (hr : FrameReady .controller c tx r 3 33 s) (hk : s.handler c = some k) :
    exec (.pakRead c tx (some r)) s =
      .next ((pakModelRead (pakCall k c tx r s) s).putPif (r + 32)
        [crc8 .pif (pakModelRead (pakCall k c tx r s) s).pif r 32]) := by
  obtain ⟨hpif, hdev, -, htx, hrx⟩ := hr
  rw [exec_pakRead, execPakRead, withControllerFrame_ready _ hpif hdev htx hrx, hk]

theorem exec_pakRead_of_noHandler {s : State} {c : Channel} {tx r : Nat}
    (hr : FrameReady .controller c tx r 3 33 s) (hk : s.handler c = none) :
    exec (.pakRead c tx (some r)) s = .next (s.putPif (r + 32) [~~~crc8 .pif s.pif r 32]) := by
  obtain ⟨hpif, hdev, -, htx, hrx⟩ := hr
  rw [exec_pakRead, execPakRead, withControllerFrame_ready _ hpif hdev htx hrx, hk]

theorem exec_pakWrite_of_handler {s : State} {c : Channel} {tx r : Nat} {k : PakKind}
    (hr : FrameReady .controller c tx r 35 1 s) (hk : s.handler c = some k) :
    exec (.pakWrite c tx (some r)) s =
      .next ((pakModelWrite (pakCall k c tx (tx + 3) s) s).putPif r [crc8 .pif s.pif (tx + 3) 32]) := by
  obtain ⟨hpif, hdev, -, htx, hrx⟩ := hr
  rw [exec_pakWrite, execPakWrite, withControllerFrame_ready _ hpif hdev htx hrx, hk]

theorem exec_pakWrite_of_noHandler {s : State} {c : Channel} {tx r : Nat}
    (hr : FrameReady .controller c tx r 35 1 s) (hk : s.handler c = none) :
    exec (.pakWrite c tx (some r)) s = .next (s.putPif r [~~~crc8 .pif s.pif (tx + 3) 32]) := by
  obtain ⟨hpif, hdev, -, htx, hrx⟩ := hr
  rw [exec_pakWrite, execPakWrite, withControllerFrame_ready _ hpif hdev htx hrx, hk]

/-! ### The check byte with and without a handler -/

/-- The document's "bitwise complement" (R97) and the exclusive or of R99 are one. -/
theorem byte_not_eq_xor (b : Byte) : ~~~b = b ^^^ 0xFF#8 := BitVec.xor_allOnes.symm

/-- A check byte written behind a chunk does not change the chunk's CRC. -/
theorem crc8_putPif_behind {s : State} (h : s.pif.wf .pif = true) (off n : Nat) (bs : List Byte) :
    crc8 .pif (s.putPif (off + n) bs).pif off n = crc8 .pif s.pif off n :=
  crc8_congr fun _ hk => Memory.read_writeBytes_other h bs (.inl (Nat.add_lt_add_left hk off))

/-- With a handler the check byte is the CRC of the chunk as the command leaves it, whatever the handler delivered. -/
theorem pakRead_checkByte_of_handler {s t : State} {c : Channel} {tx r : Nat} {k : PakKind}
    (ht : exec (.pakRead c tx (some r)) s = .next t) (hwf : s.pif.wf .pif = true)
    (hr : FrameReady .controller c tx r 3 33 s) (hk : s.handler c = some k) :
    t.pifByte (r + 32) = crc8 .pif t.pif r 32 := by
  rw [exec_pakRead_of_handler hr hk] at ht
  cases ht
  obtain ⟨-, -, -, -, hrx⟩ := hr
  have hread := pakModelRead_wf hwf (pakCall k c tx r s)
  rw [crc8_putPif_behind hread, putPif_single hread _ (by rw [pakModelRead_len]; exact hrx)]

theorem pakRead_checkByte_of_noHandler {s u : State} {c : Channel} {tx r : Nat}
    (hu : exec (.pakRead c tx (some r)) s = .next u) (hwf : s.pif.wf .pif = true)
    (hr : FrameReady .controller c tx r 3 33 s) (hk : s.handler c = none) :
    u.pifByte (r + 32) = ~~~crc8 .pif u.pif r 32 ∧ u.fault = s.fault ∧ u.out = s.out := by
  rw [exec_pakRead_of_noHandler hr hk] at hu
  cases hu
  obtain ⟨-, -, -, -, hrx⟩ := hr
  refine ⟨?_, rfl, rfl⟩
  rw [crc8_putPif_behind hwf, putPif_single hwf _ hrx]

/-- The response may lie over the data, so the CRC is that of the data as the host sent it. -/
theorem pakWrite_checkByte_of_handler {s t : State} {c : Channel} {tx r : Nat} {k : PakKind}
    (ht : exec (.pakWrite c tx (some r)) s = .next t) (hwf : s.pif.wf .pif = true)
    (hr : FrameReady .controller c tx r 35 1 s) (hk : s.handler c = some k) :
    t.pifByte r = crc8 .pif s.pif (tx + 3) 32 := by
  rw [exec_pakWrite_of_handler hr hk] at ht
  cases ht
  obtain ⟨-, -, -, -, hrx⟩ := hr
  exact putPif_single hwf _ hrx

theorem pakWrite_checkByte_of_noHandler {s u : State} {c : Channel} {tx r : Nat}
    (hu : exec (.pakWrite c tx (some r)) s = .next u) (hwf : s.pif.wf .pif = true)
    (hr : FrameReady .controller c tx r 35 1 s) (hk : s.handler c = none) :
    u.pifByte r = ~~~crc8 .pif s.pif (tx + 3) 32 ∧ u.fault = s.fault ∧ u.out = s.out := by
  rw [exec_pakWrite_of_noHandler hr hk] at hu
  cases hu
  obtain ⟨-, -, -, -, hrx⟩ := hr
  exact ⟨putPif_single hwf _ hrx, rfl, rfl⟩

/-! ### The sentinel -/

theorem pakWrite_sentinel {s t u : State} {c : Channel} {tx r : Nat} {k : PakKind} {p : Option PakKind}
    (hwf : s.pif.wf .pif = true) (ht : exec (.pakWrite c tx (some r)) (s.setChan c ⟨some k, p⟩) = .next t)
    (hu : exec (.pakWrite c tx (some r)) (s.setChan c ⟨none, p⟩) = .next u) (hf : t.fault = s.fault) :
    u.pifByte r = t.pifByte r ^^^ 0xFF#8 ∧ u.fault = s.fault ∧ u.out = s.out := by
  have hr : FrameReady .controller c tx r 35 1 s :=
    (frameReady_setChan _).mp (frameReady_of_exec_pakWrite_next ht hf)
  have hplain : t.pifByte r = crc8 .pif s.pif (tx + 3) 32 :=
    pakWrite_checkByte_of_handler (s := s.setChan c ⟨some k, p⟩) ht hwf ((frameReady_setChan _).mpr hr)
      (State.setChan_handler ..)
  obtain ⟨hcheck, hfault, hout⟩ :=
    pakWrite_checkByte_of_noHandler hu hwf ((frameReady_setChan _).mpr hr) (State.setChan_handler ..)
  refine ⟨?_, hfault, hout⟩
  rw [hcheck, hplain, State.setChan_pif, byte_not_eq_xor]

theorem pakRead_sentinel {s t u : State} {c : Channel} {tx r : Nat} {k : PakKind} {p : Option PakKind}
    (hwf : s.pif.wf .pif = true) (ht : exec (.pakRead c tx (some r)) (s.setChan c ⟨some k, p⟩) = .next t)
    (hu : exec (.pakRead c tx (some r)) (s.setChan c ⟨none, p⟩) = .next u) (hf : t.fault = s.fault)
    (hsame : ∀ n, n < 32 → u.pifByte (r + n) = t.pifByte (r + n)) :
    u.pifByte (r + 32) = t.pifByte (r + 32) ^^^ 0xFF#8 ∧ u.fault = s.fault ∧ u.out = s.out := by
  have hr : FrameReady .controller c tx r 3 33 s :=
    (frameReady_setChan _).mp (frameReady_of_exec_pakRead_next ht hf)
  have hplain : t.pifByte (r + 32) = crc8 .pif t.pif r 32 :=
    pakRead_checkByte_of_handler ht hwf ((frameReady_setChan _).mpr hr) (State.setChan_handler ..)
  obtain ⟨hcheck, hfault, hout⟩ :=
    pakRead_checkByte_of_noHandler hu hwf ((frameReady_setChan _).mpr hr) (State.setChan_handler ..)
  refine ⟨?_, hfault, hout⟩
  rw [hcheck, hplain, crc8_congr hsame, byte_not_eq_xor]

/-- Settles O21: the two check bytes of a command are one CRC, plain and complemented; for `PAK_WRITE` the CRC of the
data sent, for `PAK_READ` that of the chunk as left, which both runs share by hypothesis. -/
theorem noPakSentinelIsComplement : Obligations.NoPakSentinelIsComplement :=
  fun _ _ _ _ _ _ _ _ hwf => ⟨pakWrite_sentinel hwf.pif, pakRead_sentinel hwf.pif⟩

end Sys2Proof.Machine
end

section
/-! The rotation of pak kinds (42_pak_handler_and_switch.md R113, R120). -/

namespace Sys2Proof.Machine

@[simp] theorem rotate_memPak : rotate .memPak = .rumblePak := rfl

@[simp] theorem rotate_rumblePak : rotate .rumblePak = .transferPak := rfl

@[simp] theorem rotate_transferPak : rotate .transferPak = .memPak := rfl

/-- The period of R120: the walk along the arrows from each kind comes back to it. -/
theorem rotate_rotate_rotate (k : PakKind) : rotate (rotate (rotate k)) = k := by
  cases k with
  | memPak => rw [rotate_memPak, rotate_rumblePak, rotate_transferPak]
  | rumblePak => rw [rotate_rumblePak, rotate_transferPak, rotate_memPak]
  | transferPak => rw [rotate_transferPak, rotate_memPak, rotate_rumblePak]

/-- Settles O23: the three arrows of R113, and the period that follows from them. -/
theorem rotationIsTheThreeCycle : Obligations.RotationIsTheThreeCycle :=
  ⟨rotate_memPak, rotate_rumblePak, rotate_transferPak, rotate_rotate_rotate⟩

end Sys2Proof.Machine
end

section
/-! The mode commands of the FlashRAM device (43_flashram.md R128, R129, R133, R134, R136). -/

namespace Sys2Proof

/-! ### The words of the commands -/

/-- The bits outside the opcode and the argument are ignored (R62): a word decodes as the word the encoder builds from
its two fields. -/
theorem decodeFlash_flWord_fields (w : Word) : decodeFlash (flWord (flOpcode w) (flArg16 w)) = decodeFlash w := by
  simp only [decodeFlash, flOpcode_flWord, flArg16_flWord]

theorem decode_flcmd_of_opcode {w : Word} {op : Byte} {i : Instr} (hop : flOpcode w = op)
    (hi : decodeFlash (flWord op (flArg16 w)) = some i) : decode (.flcmd w) = .ok i := by
  rw [← hop, decodeFlash_flWord_fields] at hi
  rw [decode, hi]

@[simp] theorem decodeFlash_flWord_chipErase (a : Half) : decodeFlash (flWord 0x3C#8 a) = some .flChipEraseMode := by
  rw [decodeFlash, flOpcode_flWord]; rfl

@[simp] theorem decodeFlash_flWord_sectorErase (a : Half) :
    decodeFlash (flWord 0x4B#8 a) = some (.flSectorEraseMode a) := by
  rw [decodeFlash, flOpcode_flWord, flArg16_flWord]; rfl

@[simp] theorem decodeFlash_flWord_pageProgram (a : Half) :
    decodeFlash (flWord 0xB4#8 a) = some .flPageProgramMode := by
  rw [decodeFlash, flOpcode_flWord]; rfl

@[simp] theorem decodeFlash_flWord_status (a : Half) : decodeFlash (flWord 0xD2#8 a) = some .flStatusMode := by
  rw [decodeFlash, flOpcode_flWord]; rfl

@[simp] theorem decodeFlash_flWord_readArray (a : Half) : decodeFlash (flWord 0xF0#8 a) = some .flReadArrayMode := by
  rw [decodeFlash, flOpcode_flWord]; rfl

end Sys2Proof

namespace Sys2Proof.Machine

/-! ### The commands on a device that is not halted -/

theorem exec_flChipEraseMode_ready {s : State} (h : s.fault.flash = none) :
    exec .flChipEraseMode s = .next (setMode .chipErase s) := unlessHalted_ready _ h

theorem exec_flSectorEraseMode_ready {s : State} (h : s.fault.flash = none) (a : Half) :
    exec (.flSectorEraseMode a) s = .next (s.setFlash { s.flash with mode := .sectorErase, erasePage := a }) :=
  unlessHalted_ready _ h

theorem exec_flPageProgramMode_ready {s : State} (h : s.fault.flash = none) :
    exec .flPageProgramMode s = .next (setMode .pageProgram s) := unlessHalted_ready _ h

theorem exec_flStatusMode_ready {s : State} (h : s.fault.flash = none) :
    exec .flStatusMode s = .next (setMode .status s) := unlessHalted_ready _ h

theorem exec_flReadArrayMode_ready {s : State} (h : s.fault.flash = none) :
    exec .flReadArrayMode s = .next (setMode .readArray s) := unlessHalted_ready _ h

/-! ### A read of the status -/

theorem exec_flashMmioRead (addr : Nat) (s : State) :
    exec (.flashMmioRead addr) s = execFlashMmioRead addr s := rfl

theorem mmioValue_of_status {f : Flash} (h : f.mode = .status) : mmioValue f = some f.status := by
  rw [mmioValue, h]

/-- A read at offset 0 returns the value the mode answers with, and changes nothing (R140). -/
theorem exec_flashMmioRead_of_value {s : State} {addr : Nat} {v : Word} (h : s.fault.flash = none)
    (haddr : off17 addr = 0) (hv : mmioValue s.flash = some v) :
    exec (.flashMmioRead addr) s = .next (s.emit (.returned v)) := by
  rw [exec_flashMmioRead, execFlashMmioRead, unlessHalted_ready (sub := .flash) _ h, if_pos haddr, hv]

/-- `0xD2` clears no status bit (R134): a status read in the mode it sets returns the status from before it. -/
theorem exec_flashMmioRead_after_statusMode {s : State} (h : s.fault.flash = none) :
    exec (.flashMmioRead 0) (setMode .status s) =
      .next ((setMode .status s).emit (.returned s.flash.status)) :=
  exec_flashMmioRead_of_value (s := setMode .status s) h rfl (mmioValue_of_status rfl)

/-! ### The obligation -/

theorem flashModeWords_decode (w : Word) :
    (flOpcode w = 0x3C#8 → decode (.flcmd w) = .ok .flChipEraseMode) ∧
    (flOpcode w = 0x4B#8 → decode (.flcmd w) = .ok (.flSectorEraseMode (flArg16 w))) ∧
    (flOpcode w = 0xB4#8 → decode (.flcmd w) = .ok .flPageProgramMode) ∧
    (flOpcode w = 0xD2#8 → decode (.flcmd w) = .ok .flStatusMode) ∧
    (flOpcode w = 0xF0#8 → decode (.flcmd w) = .ok .flReadArrayMode) :=
  ⟨fun h => decode_flcmd_of_opcode h (decodeFlash_flWord_chipErase _),
    fun h => decode_flcmd_of_opcode h (decodeFlash_flWord_sectorErase _),
    fun h => decode_flcmd_of_opcode h (decodeFlash_flWord_pageProgram _),
    fun h => decode_flcmd_of_opcode h (decodeFlash_flWord_status _),
    fun h => decode_flcmd_of_opcode h (decodeFlash_flWord_readArray _)⟩

/-- Settles O26: a word's ignored bits do not reach the decoder, and each of the five commands, not halted, is its one
update of the FlashRAM record; the status read after `0xD2` finds the mode it set and the old status. -/
theorem flashModeCommandsSetTheMode : Obligations.FlashModeCommandsSetTheMode :=
  ⟨flashModeWords_decode, fun _ h =>
    ⟨exec_flChipEraseMode_ready h, exec_flSectorEraseMode_ready h, exec_flPageProgramMode_ready h,
      exec_flReadArrayMode_ready h, _, exec_flStatusMode_ready h, rfl, exec_flashMmioRead_after_statusMode h⟩⟩

end Sys2Proof.Machine
end

section
/-! `VRU_READ` with no UI, and the two VRU commands with a name only (45_vru.md R179, R180, R187, R188). -/

namespace Sys2Proof.Machine

/-! ### The answer without a UI -/

/-- The two causes of R187: no UI attached, or netplay on. -/
theorem uiAnswers_eq_false_iff (s : State) :
    uiAnswers s = false ↔ s.ui.attached = false ∨ s.params.netplay = true := by
  rw [uiAnswers, Bool.and_eq_false_iff, Bool.not_eq_false']

theorem vruAnswer_of_noUi {s : State} (h : uiAnswers s = false) : vruAnswer s = Config.noMatch :=
  if_neg fun ⟨hui, _⟩ => Bool.eq_false_iff.mp h hui

theorem vruReadOutputs_of_noUi {s : State} (h : uiAnswers s = false) :
    vruReadOutputs s = [.vruIndex Config.noMatch] := by
  rw [vruReadOutputs, if_neg (Bool.eq_false_iff.mp h), vruAnswer_of_noUi h, List.nil_append]

/-! ### `VRU_READ` on a ready frame -/

theorem exec_vruRead (c : Channel) (tx : Nat) (rx : Option Nat) (s : State) :
    exec (.vruRead c tx rx) s = execVruRead c tx rx s := rfl

theorem exec_vruRead_ready {s : State} {c : Channel} {tx r : Nat}
    (hr : FrameReady .vru c tx r 1 s.params.vruReadLen s) :
    exec (.vruRead c tx (some r)) s =
      .next (((s.setVru { s.vru with
          words := Config.vruReadWords s.draws
          status := Config.vruReadStatus s.draws }).putPif r
        ((List.range s.params.vruReadLen).map (Config.vruReadByte s.draws (vruAnswer s)))).emitAll
          (vruReadOutputs s)).nextDraw := by
  obtain ⟨hpif, hdev, hvru, htx, hrx⟩ := hr
  rw [exec_vruRead, execVruRead, withVruFrame_ready _ hpif hdev (hvru rfl) htx hrx]

/-- Settles O45: on a ready frame `VRU_READ` completes and sends its outputs; with no UI to answer they are the index
`0x7FFF` alone. -/
theorem vruReadWithoutUiAnswersNoMatch : Obligations.VruReadWithoutUiAnswersNoMatch := by
  intro s c tx r hr hcause
  have houtputs : vruReadOutputs s = [.vruIndex 0x7FFF] :=
    vruReadOutputs_of_noUi ((uiAnswers_eq_false_iff s).mpr hcause)
  refine ⟨_, exec_vruRead_ready hr, ?_⟩
  rw [State.nextDraw_out, State.emitAll_out, State.putPif_out, State.setVru_out, houtputs]

/-! ### The commands with a name only -/

theorem exec_vruWrite (c : Channel) (tx : Nat) (rx : Option Nat) (s : State) :
    exec (.vruWrite c tx rx) s = execVruWrite c tx rx s := rfl

theorem exec_vruWriteInit (c : Channel) (tx : Nat) (rx : Option Nat) (s : State) :
    exec (.vruWriteInit c tx rx) s = execVruWriteInit c tx rx s := rfl

/-- Settles O49: on a VRU channel the gate is open, and behind it each of the two commands has its refusal only. -/
theorem vruCommandsWithoutEffectAreRefused : Obligations.VruCommandsWithoutEffectAreRefused := by
  intro s c tx rx hpif hvru hdev
  have hgate : pifGate c s = none := pifGate_vru hpif hdev hvru
  constructor
  · rw [exec_vruWrite, execVruWrite, hgate, hdev]
  · rw [exec_vruWriteInit, execVruWriteInit, hgate, hdev]

end Sys2Proof.Machine
end

section
/-! Decoder and encoder (30_encoding.md). -/

namespace Sys2Proof

@[simp] theorem decodeFlash_flWord_eraseExecute (a : Half) : decodeFlash (flWord 0x78#8 a) = some .flEraseExecute := by
  rw [decodeFlash, flOpcode_flWord]; rfl

@[simp] theorem decodeFlash_flWord_programExecute (a : Half) :
    decodeFlash (flWord 0xA5#8 a) = some (.flProgramExecute a) := by
  rw [decodeFlash, flOpcode_flWord, flArg16_flWord]; rfl

@[simp] theorem decodeFlash_flWord_readSiliconId (a : Half) :
    decodeFlash (flWord 0xE1#8 a) = some .flReadSiliconIdMode := by
  rw [decodeFlash, flOpcode_flWord]; rfl

/-! ### What each map accepts -/

/-- A controller channel's code is one of the five, and the instruction is encoded under it. -/
theorem decodeControllerCode_some {c : Channel} {tx : Nat} {rx : Option Nat} {code : Byte} {i : Instr}
    (h : decodeControllerCode c tx rx code = some i) :
    code ∈ [0x00#8, 0x01#8, 0x02#8, 0x03#8, 0xFF#8] ∧ encode i = .jcmd .controller c tx rx code := by
  unfold decodeControllerCode at h
  split at h <;> cases h
  all_goals next hcode => rw [(BitVec.toNat_eq_nat.mp hcode).2]; exact ⟨by decide, rfl⟩

theorem decodeVruCode_some {c : Channel} {tx : Nat} {rx : Option Nat} {code : Byte} {i : Instr}
    (h : decodeVruCode c tx rx code = some i) :
    code ∈ [0x09#8, 0x0A#8, 0x0B#8, 0x0C#8, 0x0D#8] ∧ encode i = .jcmd .vru c tx rx code := by
  unfold decodeVruCode at h
  split at h <;> cases h
  all_goals next hcode => rw [(BitVec.toNat_eq_nat.mp hcode).2]; exact ⟨by decide, rfl⟩

/-- A command word's opcode is one of the eight, and the instruction is encoded under it, with its argument or zeros in
the low half. -/
theorem decodeFlash_some {w : Word} {i : Instr} (h : decodeFlash w = some i) :
    flOpcode w ∈ [0x3C#8, 0x4B#8, 0x78#8, 0xA5#8, 0xB4#8, 0xD2#8, 0xE1#8, 0xF0#8] ∧
      ∃ a, encode i = .flcmd (flWord (flOpcode w) a) ∧ decodeFlash (flWord (flOpcode w) a) = some i := by
  unfold decodeFlash at h
  split at h <;> cases h
  all_goals next hop => rw [(BitVec.toNat_eq_nat.mp hop).2]; exact ⟨by decide, _, rfl, by simp⟩

/-! ### The decoder by its maps -/

theorem decode_flcmd_ok_iff {w : Word} {i : Instr} : decode (.flcmd w) = .ok i ↔ decodeFlash w = some i := by
  cases h : decodeFlash w <;> simp [decode, h]

theorem decode_flcmd_of_none {w : Word} (h : decodeFlash w = none) :
    decode (.flcmd w) = .error (.unknownFlashCommand w) := by
  rw [decode, h]

theorem decode_controller_of_none {c : Channel} {tx : Nat} {rx : Option Nat} {code : Byte}
    (h : decodeControllerCode c tx rx code = none) :
    decode (.jcmd .controller c tx rx code) = .error (.unknownJcmd code) := by
  rw [decode, decodeJcmd, h]

theorem decode_vru_of_none {c : Channel} {tx : Nat} {rx : Option Nat} {code : Byte}
    (h : decodeControllerCode c tx rx code = none) (h' : decodeVruCode c tx rx code = none) :
    decode (.jcmd .vru c tx rx code) = .error (.unknownJcmd code) := by
  rw [decode, decodeJcmd, h, h']

/-- A frame's code decodes by one of the two maps. -/
theorem decode_jcmd_cases {d : Device} {c : Channel} {tx : Nat} {rx : Option Nat} {code : Byte} {i : Instr}
    (h : decode (.jcmd d c tx rx code) = .ok i) :
    decodeControllerCode c tx rx code = some i ∨ decodeVruCode c tx rx code = some i := by
  unfold decode decodeJcmd at h
  dsimp only at h
  split at h
  · cases h
  · split at h <;> cases h
    exact .inl ‹_›
  · split at h
    · cases h
      exact .inl ‹_›
    · split at h <;> cases h
      exact .inr ‹_›

/-! ### Both directions -/

theorem decode_encode (i : Instr) : decode (encode i) = .ok i := by
  cases i with
  | flChipEraseMode => exact decode_flcmd_ok_iff.mpr (decodeFlash_flWord_chipErase _)
  | flSectorEraseMode a => exact decode_flcmd_ok_iff.mpr (decodeFlash_flWord_sectorErase a)
  | flEraseExecute => exact decode_flcmd_ok_iff.mpr (decodeFlash_flWord_eraseExecute _)
  | flProgramExecute a => exact decode_flcmd_ok_iff.mpr (decodeFlash_flWord_programExecute a)
  | flPageProgramMode => exact decode_flcmd_ok_iff.mpr (decodeFlash_flWord_pageProgram _)
  | flStatusMode => exact decode_flcmd_ok_iff.mpr (decodeFlash_flWord_status _)
  | flReadSiliconIdMode => exact decode_flcmd_ok_iff.mpr (decodeFlash_flWord_readSiliconId _)
  | flReadArrayMode => exact decode_flcmd_ok_iff.mpr (decodeFlash_flWord_readArray _)
  | _ => rfl

theorem encode_of_decode_jcmd {d : Device} {c : Channel} {tx : Nat} {rx : Option Nat} {code : Byte} {i : Instr}
    (h : decode (.jcmd d c tx rx code) = .ok i) : ∃ d', encode i = .jcmd d' c tx rx code := by
  obtain h | h := decode_jcmd_cases h
  · exact ⟨_, (decodeControllerCode_some h).2⟩
  · exact ⟨_, (decodeVruCode_some h).2⟩

theorem encode_of_decode_flcmd {w : Word} {i : Instr} (h : decode (.flcmd w) = .ok i) :
    ∃ w', encode i = .flcmd w' ∧ flOpcode w' = flOpcode w ∧ w'.extractLsb' 16 8 = 0#8 ∧
      decode (.flcmd w') = .ok i := by
  obtain ⟨-, a, hencode, hdecode⟩ := decodeFlash_some (decode_flcmd_ok_iff.mp h)
  exact ⟨_, hencode, flOpcode_flWord .., flWord_mid .., decode_flcmd_ok_iff.mpr hdecode⟩

theorem encode_of_decode_busop {b : BusOp} {i : Instr} (h : decode (.busop b) = .ok i) : encode i = .busop b := by
  cases b <;> cases h <;> rfl

/-- Settles O6: each format's decoder is taken apart once, and what it read is what the encoder writes. -/
theorem decodeAndEncodeAgree : Obligations.DecodeAndEncodeAgree :=
  ⟨fun i _ => decode_encode i, fun _ _ _ _ _ _ => encode_of_decode_jcmd, fun _ _ => encode_of_decode_flcmd,
    fun _ _ => encode_of_decode_busop⟩

theorem decodeFlash_eq_none {w : Word}
    (h : flOpcode w ∉ [0x3C#8, 0x4B#8, 0x78#8, 0xA5#8, 0xB4#8, 0xD2#8, 0xE1#8, 0xF0#8]) : decodeFlash w = none :=
  Option.eq_none_iff_forall_ne_some.mpr fun _ hi => h (decodeFlash_some hi).1

theorem decodeControllerCode_eq_none {c : Channel} {tx : Nat} {rx : Option Nat} {code : Byte}
    (h : code ∉ [0x00#8, 0x01#8, 0x02#8, 0x03#8, 0xFF#8]) : decodeControllerCode c tx rx code = none :=
  Option.eq_none_iff_forall_ne_some.mpr fun _ hi => h (decodeControllerCode_some hi).1

theorem decodeVruCode_eq_none {c : Channel} {tx : Nat} {rx : Option Nat} {code : Byte}
    (h : code ∉ [0x09#8, 0x0A#8, 0x0B#8, 0x0C#8, 0x0D#8]) : decodeVruCode c tx rx code = none :=
  Option.eq_none_iff_forall_ne_some.mpr fun _ hi => h (decodeVruCode_some hi).1

/-- Settles O8: a code that decodes is in the map, so one outside every map of its format has no instruction. -/
theorem codesOutsideTheMapsAreRejected : Obligations.CodesOutsideTheMapsAreRejected := by
  refine ⟨fun w h => decode_flcmd_of_none (decodeFlash_eq_none h), fun c tx rx code h => ?_,
    fun c tx rx code h => ?_⟩
  · exact decode_controller_of_none (decodeControllerCode_eq_none h)
  · have hmaps : code ∉ [0x00#8, 0x01#8, 0x02#8, 0x03#8, 0xFF#8] ++ [0x09#8, 0x0A#8, 0x0B#8, 0x0C#8, 0x0D#8] := h
    rw [List.mem_append, not_or] at hmaps
    exact decode_vru_of_none (decodeControllerCode_eq_none hmaps.1) (decodeVruCode_eq_none hmaps.2)

/-- Settles O7: each word is read through its opcode map. -/
theorem opcodeWordsDecode : Obligations.OpcodeWordsDecode :=
  ⟨rfl, rfl, rfl, rfl, rfl, rfl, rfl, rfl, rfl⟩

end Sys2Proof
end

section
/-! The completion of a pak switch (42_pak_handler_and_switch.md R114, R118). -/

namespace Sys2Proof.Machine

/-! ### One port -/

/-- What a channel holds for its pak: the binding and the pak's own state. -/
def State.port (s : State) (c : Channel) : Chan × PakState := (s.chan.get c, s.pakState.get c)

/-- What the completion makes of a port: nothing without a pending rotation (R118). -/
def completedPort (c : Channel) (p : Chan × PakState) : Chan × PakState :=
  match p.1.changePak with
  | none => p
  | some k => (⟨some (rotate k), none⟩, Config.pakStopRumble c p.2)

theorem completedPort_of_none {c : Channel} {p : Chan × PakState} (h : p.1.changePak = none) :
    completedPort c p = p := by
  rw [completedPort, h]

theorem completedPort_of_some {c : Channel} {p : Chan × PakState} {k : PakKind} (h : p.1.changePak = some k) :
    completedPort c p = (⟨some (rotate k), none⟩, Config.pakStopRumble c p.2) := by
  rw [completedPort, h]

theorem completedPort_changePak (c : Channel) (p : Chan × PakState) : (completedPort c p).1.changePak = none := by
  cases h : p.1.changePak with
  | none => rw [completedPort_of_none h, h]
  | some k => rw [completedPort_of_some h]

/-- The UI calls of the completion on channel `c`: rumble off and one cue (R118). -/
def switchCalls (c : Channel) : List Output := [.rumble c false, .audioCue]

theorem completeSwitch_port_same (s : State) (c : Channel) :
    (completeSwitch s c).port c = completedPort c (s.port c) := by
  cases h : (s.chan.get c).changePak with
  | none => rw [completedPort_of_none h, completeSwitch, h]
  | some k =>
    rw [completedPort_of_some h, completeSwitch, h]
    exact Prod.ext (Quad.get_set_same ..) (Quad.get_set_same ..)

theorem completeSwitch_port_other (s : State) {c d : Channel} (hd : d ≠ c) :
    (completeSwitch s c).port d = s.port d := by
  rw [completeSwitch_eq]
  exact Prod.ext (Quad.get_set_other _ _ hd) (Quad.get_set_other _ _ hd)

theorem completeSwitch_out (s : State) (c : Channel) :
    (completeSwitch s c).out = s.out ++ if (s.chan.get c).changePak.isSome then switchCalls c else [] := by
  rw [completeSwitch_eq]; rfl

/-! ### Ports in index order -/

/-- Completion on distinct channels completes each of them, from what it held before, and no other. -/
theorem completeSwitches_port {cs : List Channel} (h : cs.Nodup) (s : State) (d : Channel) :
    (cs.foldl completeSwitch s).port d = if d ∈ cs then completedPort d (s.port d) else s.port d := by
  induction cs generalizing s with
  | nil => rfl
  | cons c cs ih =>
    obtain ⟨hc, hcs⟩ := List.nodup_cons.mp h
    rw [List.foldl_cons, ih hcs]
    by_cases hd : d = c
    · subst hd
      rw [if_neg hc, if_pos List.mem_cons_self, completeSwitch_port_same]
    · simp only [List.mem_cons, hd, false_or, completeSwitch_port_other s hd]

theorem completeSwitches_out {cs : List Channel} (h : cs.Nodup) (s : State) :
    (cs.foldl completeSwitch s).out =
      s.out ++ (cs.filter fun c => (s.chan.get c).changePak.isSome).flatMap switchCalls := by
  induction cs generalizing s with
  | nil => exact (List.append_nil _).symm
  | cons c cs ih =>
    obtain ⟨hc, hcs⟩ := List.nodup_cons.mp h
    have hsame : cs.filter (fun d => ((completeSwitch s c).chan.get d).changePak.isSome) =
        cs.filter fun d => (s.chan.get d).changePak.isSome := by
      refine List.filter_congr fun d hd => ?_
      have hchan : (completeSwitch s c).chan.get d = s.chan.get d :=
        congrArg Prod.fst (completeSwitch_port_other s (ne_of_mem_of_not_mem hd hc))
      rw [hchan]
    rw [List.foldl_cons, ih hcs, hsame, completeSwitch_out, List.filter_cons, List.append_assoc]
    split <;> rfl

theorem channels_nodup : ([0, 1, 2, 3] : List Channel).Nodup := by decide

theorem mem_channels (c : Channel) : c ∈ ([0, 1, 2, 3] : List Channel) := by
  fin_cases c <;> decide

/-- The completion on all four channels. -/
def switchCompleted (s : State) : State := [0, 1, 2, 3].foldl completeSwitch (s.setPakSwitch none)

theorem switchCompleted_port (s : State) (c : Channel) : (switchCompleted s).port c = completedPort c (s.port c) := by
  rw [switchCompleted, completeSwitches_port channels_nodup, if_pos (mem_channels c)]
  rfl

theorem switchCompleted_eq (s : State) : switchCompleted s = { s with
    chan := (switchCompleted s).chan, events := { s.events with pakSwitch := none },
    pakState := (switchCompleted s).pakState,
    out := s.out ++ (([0, 1, 2, 3] : List Channel).filter fun c => (s.chan.get c).changePak.isSome).flatMap
      switchCalls } := by
  have hout : (switchCompleted s).out = _ := completeSwitches_out channels_nodup (s.setPakSwitch none)
  calc switchCompleted s
      = { s.setPakSwitch none with
          chan := (switchCompleted s).chan, pakState := (switchCompleted s).pakState,
          out := (switchCompleted s).out } := completeSwitches_eq ..
    _ = _ := by rw [hout]; rfl

/-! ### The obligations -/

theorem exec_pakSwitchEvent_pending {s : State} {n : Nat} (hf : s.fault.pif = none)
    (hn : s.events.pakSwitch = some n) : exec .pakSwitchEvent s = .next (switchCompleted s) := by
  have h : exec .pakSwitchEvent s = _ := unlessHalted_ready (sub := .pif) _ hf
  rw [h, hn, switchCompleted]

/-- Settles O24: the four ports complete independently, each from what it held when the event fired. -/
theorem pakSwitchEventRotates : Obligations.PakSwitchEventRotates := by
  intro s n hf hn
  have hport := switchCompleted_port s
  refine ⟨_, exec_pakSwitchEvent_pending hf hn, fun c k hk => ?_, fun c hk => ?_, switchCompleted_eq s⟩
  · have h := (hport c).trans (completedPort_of_some hk)
    exact ⟨congrArg Prod.fst h, congrArg Prod.snd h⟩
  · have h := (hport c).trans (completedPort_of_none hk)
    exact ⟨congrArg Prod.fst h, congrArg Prod.snd h⟩

theorem exec_installPak_outside {s : State} {c : Channel} (k : PakKind) (hf : s.fault.pif = none)
    (h : (s.chan.get c).changePak = none) : exec (.installPak c k) s = .next (s.setChan c ⟨some k, none⟩) := by
  have he : exec (.installPak c k) s = _ := unlessHalted_ready (sub := .pif) _ hf
  rw [he, h]

theorem exec_installPak_inside {s : State} {c : Channel} {k' : PakKind} (k : PakKind) (hf : s.fault.pif = none)
    (h : (s.chan.get c).changePak = some k') :
    exec (.installPak c k) s = .refused (.installDuringSwitch c) := by
  have he : exec (.installPak c k) s = _ := unlessHalted_ready (sub := .pif) _ hf
  rw [he, h]

/-- Settles O25: the channel's own pending rotation decides, and the binding is an update of that channel. -/
theorem installPakBindsOutsideTheWindow : Obligations.InstallPakBindsOutsideTheWindow := by
  refine fun s c k hf => ⟨fun hnone => ?_, fun k' hk' => exec_installPak_inside k hf hk'⟩
  refine ⟨_, exec_installPak_outside k hf hnone, State.setChan_handler .., ?_,
    fun d hd => Quad.get_set_other _ _ hd, rfl⟩
  rw [State.setChan_chan, Quad.get_set_same]

end Sys2Proof.Machine
end

section
/-! What an operation that answers a next state can have done. The whole-machine statements read this one relation,
and each of the model's meanings is taken apart once, to show that it holds. -/

namespace Sys2Proof.Machine

/-! ### Memories that an operation has written to -/

/-- `m'` is `m` with bytes rewritten: as long as `m`, and in canonical form if `m` is. -/
structure Memory.Rewritten (sp : Space) (m m' : Memory) : Prop where
  len : m'.len = m.len
  wf : m.wf sp = true → m'.wf sp = true

/-- `m'` is a store `m` formatted and rewritten: at least as long as `m`, and in canonical form if `m` is. -/
structure Memory.Grown (sp : Space) (m m' : Memory) : Prop where
  len : m.len ≤ m'.len
  wf : m.wf sp = true → m'.wf sp = true

theorem Memory.Rewritten.refl (sp : Space) (m : Memory) : m.Rewritten sp m := ⟨rfl, id⟩

theorem Memory.Rewritten.trans {sp : Space} {m n o : Memory} (h : m.Rewritten sp n) (h' : n.Rewritten sp o) :
    m.Rewritten sp o := ⟨h'.len.trans h.len, h'.wf ∘ h.wf⟩

theorem Memory.rewritten_writeAll (sp : Space) (m : Memory) (cs : List Host.Cell) :
    m.Rewritten sp (m.writeAll sp cs) := ⟨m.writeAll_len sp cs, fun h => Memory.writeAll_wf h cs⟩

theorem Memory.rewritten_writeBytes (sp : Space) (m : Memory) (off : Nat) (bs : List Byte) :
    m.Rewritten sp (m.writeBytes sp off bs) := m.rewritten_writeAll sp _

theorem Memory.Grown.refl (sp : Space) (m : Memory) : m.Grown sp m := ⟨Nat.le_refl _, id⟩

theorem Memory.grown_format (sp : Space) (n : Nat) (m : Memory) : m.Grown sp (m.format n) :=
  ⟨Nat.le_max_left .., Memory.format_wf n⟩

theorem Memory.Grown.erase {sp : Space} {m n : Memory} (h : m.Grown sp n) (lo k : Nat) :
    m.Grown sp (n.erase lo k) := ⟨h.len, fun hm => Memory.erase_wf lo k (h.wf hm)⟩

theorem Memory.Grown.rewritten {sp : Space} {m n o : Memory} (h : m.Grown sp n) (h' : n.Rewritten sp o) :
    m.Grown sp o := ⟨h'.len ▸ h.len, h'.wf ∘ h.wf⟩

theorem erasedStore_grown (f : Flash) : f.store.Grown .flash (erasedStore f) := by
  have hformat : f.store.Grown .flash (f.store.format Config.flashSize) := Memory.grown_format ..
  unfold erasedStore
  split
  · exact hformat.erase ..
  · exact hformat.erase ..
  all_goals exact hformat

/-! ### The two devices whose commands are many -/

/-- The device after an erase (R131). -/
def erasedFlash (p : Params) (f : Flash) : Flash :=
  { f with store := erasedStore f, written := true, status := eraseStatus p f.status, mode := .status }

@[simp] theorem erasedFlash_status (p : Params) (f : Flash) : (erasedFlash p f).status = eraseStatus p f.status := rfl

/-- The device after a program of page `a` (R132). -/
def programmedFlash (p : Params) (a : Half) (f : Flash) : Flash :=
  { f with
    store := (f.store.format Config.flashSize).writeBytes .flash (pageBase a) f.pageBuf
    written := true
    status := programStatus p f.status
    mode := .status }

/-- What a FlashRAM command makes of the device (43_flashram.md R128 to R136). -/
inductive FlashEffect (p : Params) (f : Flash) : Instr → Flash → Prop
  | chipEraseMode : FlashEffect p f .flChipEraseMode { f with mode := .chipErase }
  | sectorEraseMode (a : Half) : FlashEffect p f (.flSectorEraseMode a) { f with mode := .sectorErase, erasePage := a }
  | erase : FlashEffect p f .flEraseExecute (erasedFlash p f)
  | program (a : Half) : FlashEffect p f (.flProgramExecute a) (programmedFlash p a f)
  | pageProgramMode : FlashEffect p f .flPageProgramMode { f with mode := .pageProgram }
  | statusMode : FlashEffect p f .flStatusMode { f with mode := .status }
  | siliconIdMode : FlashEffect p f .flReadSiliconIdMode
      { f with mode := .readSiliconId, status := setStatus p.programBusyBit f.status }
  | readArrayMode : FlashEffect p f .flReadArrayMode { f with mode := .readArray }

/-- What a frame or the timeout makes of the VRU and of the timeout's registration (45_vru.md R177 to R186). -/
inductive VruEffect (s : State) : Vru → Option Nat → Prop
  | reset : VruEffect s (vruAfterReset s) none
  | words (ws : List String) (status : Nat) :
      VruEffect s { s.vru with words := ws, status := status } s.events.vruTimeout
  | talkOn (n : Nat) : VruEffect s (talkOn s.vru) (some n)
  | talkOff : VruEffect s (talkOff s.vru) none

/-! ### The relation -/

/-- What instruction `i`, run in `s`, has done when it answers a next state. -/
inductive Effect (s : State) : Instr → State → Prop
  /-- A fatal, whose latch was clear (60_exceptions.md R195, R196). -/
  | fatal {i : Instr} (k : FatalKind) (info : FatalInfo) (h : latchOf s.fault (fatalSubsystem k) = none) :
      Effect s i { s with fault := setLatch s.fault (fatalSubsystem k) k, out := s.out ++ [.fatal k info] }
  /-- An answer in PIF RAM or to the host, with the pak handlers' own state. -/
  | answer {i : Instr} {m : Memory} (p : Quad PakState) (os : List Output) (n : Nat) (h : s.pif.Rewritten .pif m) :
      Effect s i { s with pif := m, pakState := p, out := os, draws := n }
  /-- The start of a pak switch (41_channel_dispatcher.md R95). -/
  | switch {i : Instr} {m : Memory} (c : Channel) (h : s.pif.Rewritten .pif m) :
      Effect s i (startSwitch c (s.setPif m))
  | vru {i : Instr} {m : Memory} {v : Vru} {e : Option Nat} (os : List Output) (n : Nat) (hv : VruEffect s v e)
      (h : s.pif.Rewritten .pif m) :
      Effect s i { s with
        pif := m, vru := v, events := { s.events with vruTimeout := e }, out := os, draws := n }
  | command {i : Instr} {f : Flash} (h : FlashEffect s.params s.flash i f) : Effect s i (s.setFlash f)
  /-- The write that carries a command (43_flashram.md R127). -/
  | carried {a : Nat} {v m : Word} {i : Instr} {f : Flash} (hc : carriesCommand a m = true)
      (h : FlashEffect s.params s.flash i f) : Effect s (.flashMmioWrite a v m) (s.setFlash f)
  | pageLoad {i : Instr} {bs : List Byte} (h : bs.length = Config.pageSize) :
      Effect s i (s.setFlash { s.flash with pageBuf := bs })
  | flashDma {i : Instr} {m store : Memory} (hm : s.dram.Rewritten .dram m) (hs : s.flash.store.Grown .flash store) :
      Effect s i { s with dram := m, flash := { s.flash with store := store } }
  | sram {i : Instr} {m : Memory} {r : Sram} (os : List Output) (hm : s.dram.Rewritten .dram m)
      (hs : s.sram.store.Grown .sram r.store) (hw : s.sram.written = true → r.written = true) :
      Effect s i { s with dram := m, sram := r, out := os }
  | switched : Effect s .pakSwitchEvent (switchCompleted s)
  | installed (c : Channel) (k : PakKind) : Effect s (.installPak c k) (s.setChan c ⟨some k, none⟩)
  | reset {t : State} (h : execDeviceReset s = .next t) : Effect s .deviceReset t
  | loaded {f : Saved} (h : f.wellFormed = true) : Effect s (.loadState f) (loadSaved f s)

/-! ### Fatals and frames -/

theorem raiseFatal_effect {i : Instr} {k : FatalKind} {info : FatalInfo} {s t : State}
    (h : raiseFatal k info s = .next t) (hk : latchOf s.fault (fatalSubsystem k) = none) : Effect s i t := by
  rw [raiseFatal_eq] at h
  cases h
  exact .fatal k info hk

theorem withFrame_effect {i : Instr} {c : Channel} {tx txLen rxLen : Nat} {rx : Option Nat} {s t : State}
    {run : Nat → Result} (h : withFrame c tx rx txLen rxLen s run = .next t)
    (hrun : ∀ r, run r = .next t → Effect s i t) : Effect s i t := by
  obtain ⟨hgate, ⟨r, -, hr⟩ | ⟨-, hfatal⟩⟩ := withFrame_next h
  · exact hrun r hr
  · exact raiseFatal_effect hfatal (pifGate_none hgate).1

theorem withControllerFrame_effect {i : Instr} {c : Channel} {tx txLen rxLen : Nat} {rx : Option Nat} {s t : State}
    {run : Nat → Result} (h : withControllerFrame c tx rx txLen rxLen s run = .next t)
    (hrun : ∀ r, run r = .next t → Effect s i t) : Effect s i t :=
  withFrame_effect (withControllerFrame_next h).2 hrun

/-- The VRU commands raise fatals of their own, behind the gate that finds both latches clear. -/
theorem withVruFrame_effect {i : Instr} {c : Channel} {tx txLen rxLen : Nat} {rx : Option Nat} {s t : State}
    {run : Nat → Result} (h : withVruFrame c tx rx txLen rxLen s run = .next t)
    (hrun : s.fault.pif = none → s.fault.vru = none → ∀ r, run r = .next t → Effect s i t) : Effect s i t := by
  obtain ⟨hdev, hframe⟩ := withVruFrame_next h
  obtain ⟨hpif, -, hvru⟩ := pifGate_none (withFrame_next hframe).1
  exact withFrame_effect hframe (hrun hpif (hvru hdev))

theorem putPif_rewritten (s : State) (off : Nat) (bs : List Byte) : s.pif.Rewritten .pif (s.putPif off bs).pif :=
  Memory.rewritten_writeBytes ..

theorem pakModelRead_rewritten (call : PakCall) (s : State) : s.pif.Rewritten .pif (pakModelRead call s).pif :=
  Memory.rewritten_writeBytes ..

/-- Response bytes written behind an answer are part of it. -/
theorem answer_effect_after {i : Instr} {s u : State} {m : Memory} {p : Quad PakState} {os : List Output} {n : Nat}
    (hu : u = { s with pif := m, pakState := p, out := os, draws := n }) (hm : s.pif.Rewritten .pif m) (off : Nat)
    (bs : List Byte) : Effect s i (u.putPif off bs) := by
  subst hu
  exact .answer p os n (hm.trans (Memory.rewritten_writeBytes ..))

theorem answer_effect (i : Instr) (s : State) (off : Nat) (bs : List Byte) : Effect s i (s.putPif off bs) :=
  answer_effect_after rfl (.refl ..) off bs

theorem emit_effect (i : Instr) (s : State) (o : Output) : Effect s i (s.emit o) :=
  .answer s.pakState (s.out ++ [o]) s.draws (.refl ..)

/-! ### Frames of the generic commands -/

theorem execStatus_effect {i : Instr} {c : Channel} {tx : Nat} {rx : Option Nat} {s t : State}
    (h : execStatus c tx rx s = .next t) : Effect s i t := by
  refine withFrame_effect h fun r hr => ?_
  split at hr <;> cases hr
  · exact .answer s.pakState s.out (s.draws + 1) (putPif_rewritten s r _)
  · exact answer_effect ..

theorem execReset_effect {i : Instr} {c : Channel} {tx : Nat} {rx : Option Nat} {s t : State}
    (h : execReset c tx rx s = .next t) : Effect s i t := by
  refine withFrame_effect h fun r hr => ?_
  split at hr <;> cases hr
  · exact .vru s.out (s.draws + 1) .reset (putPif_rewritten s r _)
  · exact answer_effect ..

theorem gestureWithoutPak_effect {i : Instr} {c : Channel} {info : FatalInfo} {s t : State} {off : Nat}
    {bs : List Byte} (hp : s.fault.pif = none) (h : gestureWithoutPak c s (s.putPif off bs) info = .next t) :
    Effect s i t := by
  unfold gestureWithoutPak at h
  split at h
  · cases h
  · cases h
    exact answer_effect ..
  · cases h
    exact .switch c (putPif_rewritten s off bs)
  · exact raiseFatal_effect h hp

theorem execControllerRead_effect {i : Instr} {c : Channel} {tx : Nat} {rx : Option Nat} {s t : State}
    (h : execControllerRead c tx rx s = .next t) : Effect s i t := by
  have hp : s.fault.pif = none := (pifGate_none (withFrame_next (withControllerFrame_next h).2).1).1
  refine withControllerFrame_effect h fun r hr => ?_
  dsimp only at hr
  split at hr
  · split at hr
    · cases hr
      exact .switch c (Memory.rewritten_writeBytes ..)
    · exact gestureWithoutPak_effect hp hr
  · cases hr
    exact answer_effect ..

theorem execPakRead_effect {i : Instr} {c : Channel} {tx : Nat} {rx : Option Nat} {s t : State}
    (h : execPakRead c tx rx s = .next t) : Effect s i t := by
  refine withControllerFrame_effect h fun r hr => ?_
  split at hr <;> cases hr
  · exact answer_effect_after (pakModelRead_eq ..) (pakModelRead_rewritten ..) ..
  · exact answer_effect ..

theorem execPakWrite_effect {i : Instr} {c : Channel} {tx : Nat} {rx : Option Nat} {s t : State}
    (h : execPakWrite c tx rx s = .next t) : Effect s i t := by
  refine withControllerFrame_effect h fun r hr => ?_
  split at hr <;> cases hr
  · exact answer_effect_after (pakModelWrite_eq ..) (.refl ..) ..
  · exact answer_effect ..

/-! ### The VRU -/

theorem execVruRead_effect {i : Instr} {c : Channel} {tx : Nat} {rx : Option Nat} {s t : State}
    (h : execVruRead c tx rx s = .next t) : Effect s i t := by
  refine withVruFrame_effect h fun _ _ r hr => ?_
  cases hr
  exact .vru _ (s.draws + 1) (.words _ _) (putPif_rewritten s r _)

theorem execVruReadStatus_effect {i : Instr} {c : Channel} {tx : Nat} {rx : Option Nat} {s t : State}
    (h : execVruReadStatus c tx rx s = .next t) : Effect s i t := by
  refine withVruFrame_effect h fun _ hvru r hr => ?_
  split at hr
  · split at hr
    · cases hr
      exact .vru s.out (s.draws + 1) (.words _ s.vru.status) (putPif_rewritten s r _)
    · exact raiseFatal_effect hr hvru
  · cases hr
    exact .vru s.out (s.draws + 1) (.words s.vru.words s.vru.status) (putPif_rewritten s r _)

/-- `WRITE_CONFIG` switches `talking` on or off with the timeout, or touches the words alone (45_vru.md R184). -/
theorem vruConfigure_effect (k : Byte) (frame : List Byte) (s : State) :
    ∃ v e, VruEffect s v e ∧ vruConfigure k frame s = (s.setVru v).setVruTimeout e := by
  unfold vruConfigure
  split
  · exact ⟨_, _, .talkOn _, rfl⟩
  · split
    · exact ⟨_, _, .talkOff, rfl⟩
    · exact ⟨_, _, .words (if Config.vruRawReset frame = true then [] else s.vru.words) s.vru.status, rfl⟩

theorem execVruWriteConfig_effect {i : Instr} {c : Channel} {tx : Nat} {rx : Option Nat} {s t : State}
    (h : execVruWriteConfig c tx rx s = .next t) : Effect s i t := by
  refine withVruFrame_effect h fun hpif _ r hr => ?_
  dsimp only at hr
  split at hr
  · obtain ⟨v, e, hv, he⟩ := vruConfigure_effect _ _ s
    rw [he] at hr
    cases hr
    exact .vru s.out (s.draws + 1) hv (putPif_rewritten s r _)
  · exact raiseFatal_effect hr hpif

theorem execVruWrite_ne_next (c : Channel) (tx : Nat) (rx : Option Nat) (s t : State) :
    execVruWrite c tx rx s ≠ .next t := by
  unfold execVruWrite
  split <;> exact nofun

theorem execVruWriteInit_ne_next (c : Channel) (tx : Nat) (rx : Option Nat) (s t : State) :
    execVruWriteInit c tx rx s ≠ .next t := by
  unfold execVruWriteInit
  split <;> exact nofun

theorem execVruTimeoutEvent_effect {i : Instr} {s t : State} (h : execVruTimeoutEvent s = .next t) :
    Effect s i t := by
  obtain ⟨-, h⟩ := unlessHalted_next h
  split at h <;> cases h
  exact .vru s.out s.draws .talkOff (.refl ..)

/-! ### The FlashRAM device -/

/-- A FlashRAM command that answers a next state took the range fatal, or has its effect on the device. -/
theorem exec_command_next {v : Word} {i : Instr} {s t : State} (hi : decodeFlash v = some i)
    (h : exec i s = .next t) :
    s.fault.flash = none ∧
      ((∃ info, raiseFatal .flashRange info s = .next t) ∨
        ∃ f, FlashEffect s.params s.flash i f ∧ t = s.setFlash f) := by
  have hmem := decodeFlash_cases hi
  simp only [List.mem_cons, List.not_mem_nil, or_false] at hmem
  obtain rfl | rfl | rfl | rfl | rfl | rfl | rfl | rfl := hmem
  all_goals
    obtain ⟨hlatch, h⟩ := unlessHalted_next (sub := .flash) h
    refine ⟨hlatch, ?_⟩
  · cases h
    exact .inr ⟨_, .chipEraseMode, rfl⟩
  · cases h
    exact .inr ⟨_, .sectorEraseMode _, rfl⟩
  · split at h
    · exact .inl ⟨_, h⟩
    · cases h
      exact .inr ⟨_, .erase, rfl⟩
  · split at h
    · exact .inl ⟨_, h⟩
    · cases h
      exact .inr ⟨_, .program _, rfl⟩
  · cases h
    exact .inr ⟨_, .pageProgramMode, rfl⟩
  · cases h
    exact .inr ⟨_, .statusMode, rfl⟩
  · cases h
    exact .inr ⟨_, .siliconIdMode, rfl⟩
  · cases h
    exact .inr ⟨_, .readArrayMode, rfl⟩

theorem exec_command_effect {v : Word} {i : Instr} {s t : State} (hi : decodeFlash v = some i)
    (h : exec i s = .next t) : Effect s i t := by
  obtain ⟨hlatch, ⟨info, hfatal⟩ | ⟨f, hf, rfl⟩⟩ := exec_command_next hi h
  · exact raiseFatal_effect hfatal hlatch
  · exact .command hf

/-- A write at the command port is the command it carries or a fatal (43_flashram.md R127, R137, R139). -/
theorem execFlashMmioWrite_effect {a : Nat} {v m : Word} {s t : State}
    (h : execFlashMmioWrite a v m s = .next t) : Effect s (.flashMmioWrite a v m) t := by
  obtain ⟨hlatch, h⟩ := unlessHalted_next h
  split at h
  · next hcarries =>
    cases hi : decodeFlash v with
    | none =>
      rw [runFlashCommand_of_none hi] at h
      exact raiseFatal_effect h hlatch
    | some i =>
      rw [runFlashCommand_of_some hi] at h
      obtain ⟨-, ⟨info, hfatal⟩ | ⟨f, hf, rfl⟩⟩ := exec_command_next hi h
      · exact raiseFatal_effect hfatal hlatch
      · exact .carried hcarries hf
  · exact raiseFatal_effect h hlatch

theorem execFlashMmioRead_effect {i : Instr} {a : Nat} {s t : State} (h : execFlashMmioRead a s = .next t) :
    Effect s i t := by
  obtain ⟨hlatch, h⟩ := unlessHalted_next h
  split at h
  · split at h
    · cases h
      exact emit_effect ..
    · exact raiseFatal_effect h hlatch
  · exact raiseFatal_effect h hlatch

theorem execFlashDmaRead_effect {i : Instr} {cart dram len : Nat} {s t : State}
    (h : execFlashDmaRead cart dram len s = .next t) : Effect s i t := by
  obtain ⟨hlatch, h⟩ := unlessHalted_next h
  split at h
  · next hshape =>
    cases h
    exact .pageLoad ((dramBytes_length ..).trans hshape.2)
  · exact raiseFatal_effect h hlatch

theorem execFlashDmaWrite_effect {i : Instr} {cart dram len : Nat} {s t : State}
    (h : execFlashDmaWrite cart dram len s = .next t) : Effect s i t := by
  obtain ⟨hlatch, h⟩ := unlessHalted_next h
  split at h
  · cases h
    exact .flashDma (Memory.rewritten_writeAll ..) (.refl ..)
  · split at h
    · cases h
      exact .flashDma (Memory.rewritten_writeAll ..) (Memory.grown_format ..)
    · exact raiseFatal_effect h hlatch

/-! ### The SRAM device -/

theorem withAlignedSram_effect {i : Instr} {a : Nat} {s t : State} {r : Result}
    (h : withAlignedSram a s r = .next t) (hr : r = .next t → Effect s i t) : Effect s i t := by
  obtain ⟨hlatch, h⟩ := unlessHalted_next h
  split at h
  · exact hr h
  · exact raiseFatal_effect h hlatch

theorem execSramMmioRead_effect {i : Instr} {a : Nat} {s t : State} (h : execSramMmioRead a s = .next t) :
    Effect s i t := by
  refine withAlignedSram_effect h fun hr => ?_
  cases hr
  exact .sram _ (.refl ..) (Memory.grown_format ..) id

theorem execSramMmioWrite_effect {i : Instr} {a : Nat} {v m : Word} {s t : State}
    (h : execSramMmioWrite a v m s = .next t) : Effect s i t := by
  refine withAlignedSram_effect h fun hr => ?_
  cases hr
  exact .sram s.out (.refl ..) ((Memory.grown_format ..).rewritten (Memory.rewritten_writeBytes ..)) fun _ => rfl

theorem execSramDmaRead_effect {i : Instr} {cart dram len : Nat} {s t : State}
    (h : execSramDmaRead cart dram len s = .next t) : Effect s i t := by
  obtain ⟨-, h⟩ := unlessHalted_next h
  cases h
  exact .sram s.out (.refl ..) ((Memory.grown_format ..).rewritten (Memory.rewritten_writeBytes ..)) fun _ => rfl

theorem execSramDmaWrite_effect {i : Instr} {cart dram len : Nat} {s t : State}
    (h : execSramDmaWrite cart dram len s = .next t) : Effect s i t := by
  obtain ⟨-, h⟩ := unlessHalted_next h
  cases h
  exact .sram s.out (Memory.rewritten_writeAll ..) (Memory.grown_format ..) id

/-! ### Paks and the platform -/

theorem execPakSwitchEvent_effect {s t : State} (h : execPakSwitchEvent s = .next t) :
    Effect s .pakSwitchEvent t := by
  obtain ⟨-, h⟩ := unlessHalted_next h
  split at h <;> cases h
  exact .switched

theorem execInstallPak_effect {c : Channel} {k : PakKind} {s t : State} (h : execInstallPak c k s = .next t) :
    Effect s (.installPak c k) t := by
  obtain ⟨-, h⟩ := unlessHalted_next h
  split at h <;> cases h
  exact .installed c k

theorem execLoadState_effect {f : Saved} {s t : State} (h : execLoadState f s = .next t) :
    Effect s (.loadState f) t := by
  obtain ⟨-, h⟩ := unlessHalted_next h
  obtain ⟨-, h⟩ := unlessHalted_next h
  obtain ⟨-, h⟩ := unlessHalted_next h
  split at h <;> cases h
  exact .loaded ‹_›

/-! ### Every instruction -/

theorem exec_effect {i : Instr} {s t : State} (h : exec i s = .next t) : Effect s i t := by
  cases i with
  | status => exact execStatus_effect h
  | controllerRead => exact execControllerRead_effect h
  | pakRead => exact execPakRead_effect h
  | pakWrite => exact execPakWrite_effect h
  | reset => exact execReset_effect h
  | vruRead => exact execVruRead_effect h
  | vruWrite c tx rx => exact absurd h (execVruWrite_ne_next c tx rx s t)
  | vruReadStatus => exact execVruReadStatus_effect h
  | vruWriteConfig => exact execVruWriteConfig_effect h
  | vruWriteInit c tx rx => exact absurd h (execVruWriteInit_ne_next c tx rx s t)
  | flChipEraseMode => exact exec_command_effect (decodeFlash_flWord_chipErase 0) h
  | flSectorEraseMode a => exact exec_command_effect (decodeFlash_flWord_sectorErase a) h
  | flEraseExecute => exact exec_command_effect (decodeFlash_flWord_eraseExecute 0) h
  | flProgramExecute a => exact exec_command_effect (decodeFlash_flWord_programExecute a) h
  | flPageProgramMode => exact exec_command_effect (decodeFlash_flWord_pageProgram 0) h
  | flStatusMode => exact exec_command_effect (decodeFlash_flWord_status 0) h
  | flReadSiliconIdMode => exact exec_command_effect (decodeFlash_flWord_readSiliconId 0) h
  | flReadArrayMode => exact exec_command_effect (decodeFlash_flWord_readArray 0) h
  | flashMmioRead => exact execFlashMmioRead_effect h
  | flashMmioWrite => exact execFlashMmioWrite_effect h
  | flashDmaRead => exact execFlashDmaRead_effect h
  | flashDmaWrite => exact execFlashDmaWrite_effect h
  | sramMmioRead => exact execSramMmioRead_effect h
  | sramMmioWrite => exact execSramMmioWrite_effect h
  | sramDmaRead => exact execSramDmaRead_effect h
  | sramDmaWrite => exact execSramDmaWrite_effect h
  | pakSwitchEvent => exact execPakSwitchEvent_effect h
  | vruTimeoutEvent => exact execVruTimeoutEvent_effect h
  | deviceReset => exact .reset h
  | installPak => exact execInstallPak_effect h
  | loadState => exact execLoadState_effect h

end Sys2Proof.Machine
end

section
/-! What every step keeps (10_state.md, 41_channel_dispatcher.md R95 d, 43_flashram.md R149, 45_vru.md R186). -/

namespace Sys2Proof.Machine

/-! ### One input -/

/-- What taking an input has done when it answers a next state (70_reset_and_hazards.md R233). -/
inductive Taken (s : State) : Input → State → Prop
  | op {o : Op} {i : Instr} {t : State} (h : Effect s i t)
      (hload : ∀ f, i = .loadState f → o = .bus (.loadState f)) : Taken s (.op o) t
  | hostPif (a : Nat) (v : Byte) : Taken s (.hostPif a v) (s.setPif (s.pif.write .pif a v))
  | hostDram (a : Nat) (v : Byte) : Taken s (.hostDram a v) (s.setDram (s.dram.write .dram a v))
  | advance (n : Nat) : Taken s (.advance n) { s with now := s.now + n }
  | flashPersisted : Taken s .flashPersisted (s.setFlash { s.flash with written := false })
  | sramPersisted : Taken s .sramPersisted (s.setSram { s.sram with written := false })
  | ui (u : Ui) : Taken s (.ui u) { s with ui := u }
  | handover (h : Handover) : Taken s (.handover h) { s with handover := h }

/-- No frame decodes to a `LoadState`: its encoding would be a frame. -/
theorem decode_jcmd_ne_loadState {d : Device} {c : Channel} {tx : Nat} {rx : Option Nat} {code : Byte} {f : Saved} :
    decode (.jcmd d c tx rx code) ≠ .ok (.loadState f) := fun h => by
  obtain ⟨_, henc⟩ := encode_of_decode_jcmd h
  cases henc

/-- The contract fatal that precedes the decoder and the log line of an unknown code are effects every instruction
can have: `STATUS` stands for them. -/
theorem presentFrame_effect {c : Channel} {tx rx : Option Nat} {s t : State}
    (h : presentFrame c tx rx s = .next t) : ∃ i, Effect s i t ∧ ∀ f, i ≠ .loadState f := by
  have hstatus : ∀ f, Instr.status c 0 rx ≠ .loadState f := fun _ hf => nomatch hf
  unfold presentFrame at h
  split at h
  · cases h
  · next hgate =>
    split at h
    · exact ⟨.status c 0 rx, raiseFatal_effect h (pifGate_none hgate).1, hstatus⟩
    · split at h
      · next hdecode => exact ⟨_, exec_effect h, fun f hf => decode_jcmd_ne_loadState (hf ▸ hdecode)⟩
      · cases h
        exact ⟨.status c 0 rx, emit_effect .., hstatus⟩

theorem fetchBus_cases (b : BusOp) : fetchBus b = .busop b ∨ ∃ w, fetchBus b = .flcmd w := by
  cases b with
  | flashMmioWrite a v m =>
    by_cases hc : carriesCommand a m = true
    · exact .inr ⟨v, if_pos hc⟩
    · exact .inl (if_neg hc)
  | _ => exact .inl rfl

/-- A bus operation runs as itself or as the command word it carries, which is no `LoadState`. -/
theorem presentBus_effect {b : BusOp} {s t : State} (h : presentBus b s = .next t) :
    ∃ i, Effect s i t ∧ ∀ f, i = .loadState f → b = .loadState f := by
  have hbus : ∀ i, encode i = .busop b → ∀ f, i = .loadState f → b = .loadState f := by
    rintro _ henc f rfl
    cases henc
    rfl
  unfold presentBus at h
  split at h
  · next i hdecode =>
    refine ⟨i, exec_effect h, ?_⟩
    obtain hb | ⟨w, hw⟩ := fetchBus_cases b
    · exact hbus i (encode_of_decode_busop (hb ▸ hdecode))
    · obtain ⟨_, henc, -⟩ := encode_of_decode_flcmd (hw ▸ hdecode)
      rintro f rfl
      cases henc
  · exact ⟨_, exec_effect h, hbus _ (encode_of_decode_busop rfl)⟩

theorem takeInput_taken {i : Input} {s t : State} (h : takeInput i s = .next t) : Taken s i t := by
  cases i with
  | op o =>
    cases o with
    | pifProcess c tx rx =>
      obtain ⟨i, hi, hload⟩ := presentFrame_effect h
      exact .op hi fun f hf => absurd hf (hload f)
    | bus b =>
      obtain ⟨i, hi, hload⟩ := presentBus_effect h
      exact .op hi fun f hf => congrArg Op.bus (hload f hf)
  | hostPif a v =>
    dsimp only [takeInput] at h
    split at h <;> cases h
    exact .hostPif a v
  | hostDram a v =>
    dsimp only [takeInput] at h
    split at h <;> cases h
    exact .hostDram a v
  | advance n => cases h; exact .advance n
  | flashPersisted => cases h; exact .flashPersisted
  | sramPersisted => cases h; exact .sramPersisted
  | ui u => cases h; exact .ui u
  | handover w => cases h; exact .handover w

/-- A step answers the same state, or takes the oldest input. -/
theorem step_taken {s t : State} (h : step s = .next t) :
    t = s ∨ ∃ i rest, s.inbox = i :: rest ∧ Taken (s.setInbox rest) i t := by
  unfold step at h
  split at h
  · cases h
    exact .inl rfl
  · exact .inr ⟨_, _, ‹_›, takeInput_taken h⟩

/-! ### Well-formedness -/

theorem VruEffect.wordBuffer_length {s : State} {v : Vru} {e : Option Nat} (h : VruEffect s v e)
    (hs : s.vru.wordBuffer.length = Config.vruSlots) : v.wordBuffer.length = Config.vruSlots := by
  cases h with
  | reset => exact (List.length_map ..).trans List.length_range
  | _ => exact hs

theorem FlashEffect.store_grown {p : Params} {f f' : Flash} {i : Instr} (h : FlashEffect p f i f') :
    f.store.Grown .flash f'.store := by
  cases h with
  | erase => exact erasedStore_grown f
  | program => exact (Memory.grown_format ..).rewritten (Memory.rewritten_writeBytes ..)
  | _ => exact .refl ..

theorem FlashEffect.pageBuf_eq {p : Params} {f f' : Flash} {i : Instr} (h : FlashEffect p f i f') :
    f'.pageBuf = f.pageBuf := by
  cases h <;> rfl

theorem State.WF.flashEffect {s : State} {f : Flash} {i : Instr} (hs : s.WF)
    (h : FlashEffect s.params s.flash i f) : (s.setFlash f).WF :=
  { hs with
    flash := h.store_grown.wf hs.flash
    pageBuf := (congrArg List.length h.pageBuf_eq).trans hs.pageBuf }

theorem storeAfterReset_wf {sp : Space} {handed : Option Memory} {store : Memory} (hh : handedWf sp handed = true)
    (hs : store.wf sp = true) : (storeAfterReset handed store).wf sp = true := by
  cases handed with
  | none => exact hs
  | some m => exact hh

theorem State.WF.deviceReset {s t : State} (hs : s.WF) (h : execDeviceReset s = .next t) : t.WF := by
  cases h
  exact { hs with
    pif := Memory.writeBytes_wf (Memory.blankOf_wf ..) _ _
    flash := storeAfterReset_wf hs.handedFlash hs.flash
    sram := storeAfterReset_wf hs.handedSram hs.sram
    pageBuf := List.length_replicate
    wordBuffer := VruEffect.reset.wordBuffer_length hs.wordBuffer
    handedFlash := rfl
    handedSram := rfl }

theorem Effect.wf {i : Instr} {s t : State} (h : Effect s i t) (hs : s.WF) : t.WF := by
  cases h with
  | fatal => exact { hs with }
  | answer _ _ _ hm => exact { hs with pif := hm.wf hs.pif }
  | switch _ hm => exact { hs with pif := hm.wf hs.pif }
  | vru _ _ hv hm => exact { hs with pif := hm.wf hs.pif, wordBuffer := hv.wordBuffer_length hs.wordBuffer }
  | command hf => exact hs.flashEffect hf
  | carried _ hf => exact hs.flashEffect hf
  | pageLoad hlen => exact { hs with pageBuf := hlen }
  | flashDma hm hst => exact { hs with dram := hm.wf hs.dram, flash := hst.wf hs.flash }
  | sram _ hm hst => exact { hs with dram := hm.wf hs.dram, sram := hst.wf hs.sram }
  | switched =>
    rw [switchCompleted_eq]
    exact { hs with }
  | installed => exact { hs with }
  | reset hr => exact hs.deviceReset hr
  | loaded hf =>
    rw [Saved.wellFormed, Bool.and_eq_true] at hf
    exact { hs with pageBuf := beq_iff_eq.mp hf.1, wordBuffer := beq_iff_eq.mp hf.2 }

theorem Taken.wf {i : Input} {s t : State} (h : Taken s i t) (hi : i.wf = true) (hs : s.WF) : t.WF := by
  cases h with
  | op h => exact h.wf hs
  | hostPif => exact { hs with pif := Memory.write_wf hs.pif .. }
  | hostDram => exact { hs with dram := Memory.write_wf hs.dram .. }
  | handover =>
    obtain ⟨hflash, hsram⟩ := Bool.and_eq_true_iff.mp hi
    exact { hs with handedFlash := hflash, handedSram := hsram }
  | advance | flashPersisted | sramPersisted | ui => exact { hs with }

/-- Settles O2: every effect of an instruction and every act of the outside world keeps each clause. -/
theorem stepKeepsWellFormed : Obligations.StepKeepsWellFormed := by
  intro s t hs h
  obtain rfl | ⟨i, rest, hinbox, htaken⟩ := step_taken h
  · exact hs
  · have hmem : ∀ j, j ∈ i :: rest → j.wf = true := hinbox ▸ hs.inbox
    have hrest : (s.setInbox rest).WF := { hs with inbox := fun j hj => hmem j (List.mem_cons_of_mem _ hj) }
    exact htaken.wf (hmem i List.mem_cons_self) hrest

/-! ### The pending switch -/

theorem loadKinds_get (chan : Quad Chan) (kinds : Quad (Option PakKind)) (c : Channel) :
    (loadKinds chan kinds).get c = ⟨kinds.get c, (chan.get c).changePak⟩ := by
  fin_cases c <;> rfl

/-- A channel that is bound anew, outside a switch, has no pending rotation. -/
theorem State.SwitchPending.setChan {s : State} (hs : s.SwitchPending) (c : Channel) (k : Option PakKind) :
    (s.setChan c ⟨k, none⟩).SwitchPending := by
  intro d hd
  by_cases hdc : d = c
  · subst hdc
    rw [State.setChan_chan, Quad.get_set_same] at hd
    exact absurd rfl hd
  · rw [State.setChan_chan, Quad.get_set_other _ _ hdc] at hd
    exact hs d hd

theorem switchCompleted_changePak (s : State) (c : Channel) : ((switchCompleted s).chan.get c).changePak = none :=
  (congrArg (fun p => p.1.changePak) (switchCompleted_port s c)).trans (completedPort_changePak ..)

theorem Effect.switchPending {i : Instr} {s t : State} (h : Effect s i t) (hs : s.SwitchPending) :
    t.SwitchPending := by
  cases h with
  | switch => exact fun _ _ => nofun
  | switched => exact fun c hc => absurd (switchCompleted_changePak s c) hc
  | installed c k => exact hs.setChan c (some k)
  | reset hr =>
    cases hr
    exact fun c hc => absurd (congrArg Chan.changePak (Quad.get_all Chan.reset c)) hc
  | @loaded f =>
    intro c hc
    have hchan : (loadSaved f s).chan.get c = _ := loadKinds_get s.chan f.kinds c
    rw [hchan] at hc
    exact hs c hc
  | fatal | answer | vru | command | carried | pageLoad | flashDma | sram => exact hs

theorem Taken.switchPending {i : Input} {s t : State} (h : Taken s i t) (hs : s.SwitchPending) :
    t.SwitchPending := by
  cases h with
  | op h => exact h.switchPending hs
  | _ => exact hs

/-- Settles O3: only the start of a switch sets `change_pak`, and it stamps the event; only the completion and
`DeviceReset` consume the event, and they clear `change_pak`. -/
theorem stepKeepsSwitchPending : Obligations.StepKeepsSwitchPending := by
  intro s t hs h
  obtain rfl | ⟨i, rest, -, htaken⟩ := step_taken h
  · exact hs
  · exact htaken.switchPending hs

/-! ### The next input is no `LoadState` -/

theorem ne_loadState_of_nextIsNoLoad {s : State} {i : Input} {rest : List Input} (h : s.nextIsNoLoad = true)
    (hinbox : s.inbox = i :: rest) (f : Saved) : i ≠ .op (.bus (.loadState f)) := by
  rintro rfl
  rw [State.nextIsNoLoad, hinbox] at h
  cases h

/-- The step of an invariant that a `LoadState` can break: every other effect keeps it, and so does every act of the
outside world. -/
theorem step_taken_of_noLoad {s t : State} (hload : s.nextIsNoLoad = true) (h : step s = .next t) :
    t = s ∨ ∃ i rest, Taken (s.setInbox rest) i t ∧ ∀ f, i ≠ .op (.bus (.loadState f)) := by
  obtain rfl | ⟨i, rest, hinbox, htaken⟩ := step_taken h
  · exact .inl rfl
  · exact .inr ⟨i, rest, htaken, ne_loadState_of_nextIsNoLoad hload hinbox⟩

/-! ### Status bits -/

/-- The four named status bits are four (10_state.md R18). -/
structure DistinctBits (p : Params) : Prop where
  pB_eB : p.programBusyBit ≠ p.eraseBusyBit
  pB_pS : p.programBusyBit ≠ p.programSuccessBit
  pB_eS : p.programBusyBit ≠ p.eraseSuccessBit
  eB_pS : p.eraseBusyBit ≠ p.programSuccessBit
  eB_eS : p.eraseBusyBit ≠ p.eraseSuccessBit

theorem distinctBits_of_paramsOk {p : Params} (h : paramsOk p = true) : DistinctBits p := by
  simp only [paramsOk, Bool.and_eq_true, decide_eq_true_eq, List.nodup_cons, List.mem_cons, not_or] at h
  obtain ⟨⟨⟨⟨⟨h1, h2, h3, -⟩, ⟨h4, h5, -⟩, -⟩, -⟩, -⟩, -⟩ := h
  exact ⟨h1, h2, h3, h4, h5⟩

theorem statusBit_clear_iff (b : Fin 32) (st : Word) : st &&& statusMask b = 0#32 ↔ st.getLsbD b.val = false := by
  constructor
  · intro h
    have hbit : (st &&& statusMask b).getLsbD b.val = (0#32).getLsbD b.val := by rw [h]
    rwa [BitVec.getLsbD_and, getLsbD_statusMask, decide_eq_true rfl, Bool.and_true, BitVec.getLsbD_zero] at hbit
  · intro h
    refine BitVec.eq_of_getLsbD_eq fun i hi => ?_
    rw [BitVec.getLsbD_and, getLsbD_statusMask b ⟨i, hi⟩, BitVec.getLsbD_zero]
    by_cases hb : ⟨i, hi⟩ = b
    · subst hb
      rw [h, Bool.false_and]
    · rw [decide_eq_false hb, Bool.and_false]

theorem getLsbD_eraseStatus (p : Params) (st : Word) (b : Fin 32) :
    (eraseStatus p st).getLsbD b.val =
      (st.getLsbD b.val && !decide (b = p.eraseBusyBit) || decide (b = p.eraseSuccessBit)) := by
  rw [eraseStatus, clearStatus_setStatus, getLsbD_setStatus, getLsbD_clearStatus]

theorem getLsbD_programStatus (p : Params) (st : Word) (b : Fin 32) :
    (programStatus p st).getLsbD b.val =
      (st.getLsbD b.val && !decide (b = p.programBusyBit) || decide (b = p.programSuccessBit)) := by
  rw [programStatus, clearStatus_setStatus, getLsbD_setStatus, getLsbD_clearStatus]

/-- A command leaves the status alone, or is an erase, a program or the Silicon-ID mode. -/
theorem FlashEffect.status_cases {p : Params} {f f' : Flash} {i : Instr} (h : FlashEffect p f i f') :
    f'.status = f.status ∨ f'.status = eraseStatus p f.status ∨ f'.status = programStatus p f.status ∨
      f'.status = setStatus p.programBusyBit f.status := by
  cases h with
  | erase => exact .inr (.inl rfl)
  | program => exact .inr (.inr (.inl rfl))
  | siliconIdMode => exact .inr (.inr (.inr rfl))
  | _ => exact .inl rfl

theorem FlashEffect.eraseBusy_clear {p : Params} {f f' : Flash} {i : Instr} (h : FlashEffect p f i f')
    (hp : DistinctBits p) (hf : f.status.getLsbD p.eraseBusyBit.val = false) :
    f'.status.getLsbD p.eraseBusyBit.val = false := by
  obtain hst | hst | hst | hst := h.status_cases <;> rw [hst]
  · exact hf
  · rw [getLsbD_eraseStatus, hf]
    simp [hp.eB_eS]
  · rw [getLsbD_programStatus, hf]
    simp [hp.eB_pS]
  · rw [getLsbD_setStatus, hf]
    simp [hp.pB_eB.symm]

theorem FlashEffect.success_sticky {p : Params} {f f' : Flash} {i : Instr} (h : FlashEffect p f i f')
    (hp : DistinctBits p) {b : Fin 32} (hb : b ∈ [p.eraseSuccessBit, p.programSuccessBit])
    (hf : f.status.getLsbD b.val = true) : f'.status.getLsbD b.val = true := by
  have hbusy : b ≠ p.eraseBusyBit ∧ b ≠ p.programBusyBit := by
    simp only [List.mem_cons, List.not_mem_nil, or_false] at hb
    obtain rfl | rfl := hb
    · exact ⟨hp.eB_eS.symm, hp.pB_eS.symm⟩
    · exact ⟨hp.eB_pS.symm, hp.pB_pS.symm⟩
  obtain hst | hst | hst | hst := h.status_cases <;> rw [hst]
  · exact hf
  · rw [getLsbD_eraseStatus, hf]
    simp [hbusy.1]
  · rw [getLsbD_programStatus, hf]
    simp [hbusy.2]
  · rw [getLsbD_setStatus, hf, Bool.true_or]

theorem FlashEffect.unnamed_bit {p : Params} {f f' : Flash} {i : Instr} (h : FlashEffect p f i f') {b : Fin 32}
    (hb : b ∉ [p.eraseSuccessBit, p.programSuccessBit, p.eraseBusyBit, p.programBusyBit]) :
    f'.status.getLsbD b.val = f.status.getLsbD b.val := by
  simp only [List.mem_cons, List.not_mem_nil, or_false, not_or] at hb
  obtain ⟨heS, hpS, heB, hpB⟩ := hb
  obtain hst | hst | hst | hst := h.status_cases <;> rw [hst]
  · rw [getLsbD_eraseStatus]
    simp [heB, heS]
  · rw [getLsbD_programStatus]
    simp [hpB, hpS]
  · rw [getLsbD_setStatus]
    simp [hpB]

/-- Only the eight commands, the write that carries one, `DeviceReset` and `LoadState` touch the status and the
mode. -/
theorem Effect.flash_cases {i : Instr} {s t : State} (h : Effect s i t) :
    (t.flash.status = s.flash.status ∧ t.flash.mode = s.flash.mode) ∨
      (∃ j, FlashEffect s.params s.flash j t.flash ∧
        (i = j ∨ ∃ a v m, i = .flashMmioWrite a v m ∧ carriesCommand a m = true)) ∨
      i = .deviceReset ∨ ∃ f, i = .loadState f := by
  cases h with
  | command hf => exact .inr (.inl ⟨_, hf, .inl rfl⟩)
  | carried hc hf => exact .inr (.inl ⟨_, hf, .inr ⟨_, _, _, rfl, hc⟩⟩)
  | reset => exact .inr (.inr (.inl rfl))
  | loaded => exact .inr (.inr (.inr ⟨_, rfl⟩))
  | switched =>
    rw [switchCompleted_eq]
    exact .inl ⟨rfl, rfl⟩
  | fatal | answer | switch | vru | pageLoad | flashDma | sram | installed => exact .inl ⟨rfl, rfl⟩

/-! ### The erase-busy bit -/

/-- No effect touches the parameters, the clock, the UI's answers or the inputs to come (R233). -/
theorem Effect.outside_eq {i : Instr} {s t : State} (h : Effect s i t) :
    t.params = s.params ∧ t.now = s.now ∧ t.ui = s.ui ∧ t.inbox = s.inbox := by
  cases h with
  | switched =>
    rw [switchCompleted_eq]
    exact ⟨rfl, rfl, rfl, rfl⟩
  | reset hr =>
    cases hr
    exact ⟨rfl, rfl, rfl, rfl⟩
  | _ => exact ⟨rfl, rfl, rfl, rfl⟩

theorem Effect.eraseBusyClear {i : Instr} {s t : State} (h : Effect s i t) (hp : DistinctBits s.params)
    (hi : ∀ f, i ≠ .loadState f) (hs : s.EraseBusyClear) : t.EraseBusyClear := by
  unfold State.EraseBusyClear at hs ⊢
  rw [statusBit_clear_iff] at hs ⊢
  rw [h.outside_eq.1]
  obtain ⟨hst, -⟩ | ⟨j, hf, -⟩ | rfl | ⟨f, rfl⟩ := h.flash_cases
  · rw [hst]
    exact hs
  · exact hf.eraseBusy_clear hp hs
  · cases h with
    | fatal | answer | switch | vru | pageLoad | flashDma | sram => exact hs
    | command hf => cases hf
    | reset hr =>
      cases hr
      exact BitVec.getLsbD_zero
  · exact absurd rfl (hi f)

theorem Taken.eraseBusyClear {i : Input} {s t : State} (h : Taken s i t) (hp : DistinctBits s.params)
    (hi : ∀ f, i ≠ .op (.bus (.loadState f))) (hs : s.EraseBusyClear) : t.EraseBusyClear := by
  cases h with
  | op h hload => exact h.eraseBusyClear hp (fun f hf => hi f (congrArg Input.op (hload f hf))) hs
  | _ => exact hs

/-- Settles O4: the erase sets and clears its busy bit in one command, and no other bit that a command sets is that
bit. -/
theorem stepKeepsEraseBusyClear : Obligations.StepKeepsEraseBusyClear := by
  intro s t hwf hload hs h
  obtain rfl | ⟨i, rest, htaken, hi⟩ := step_taken_of_noLoad hload h
  · exact hs
  · exact htaken.eraseBusyClear (distinctBits_of_paramsOk hwf.params) hi hs

/-! ### The VRU timeout -/

theorem Effect.timeoutWhileTalking {i : Instr} {s t : State} (h : Effect s i t) (hi : ∀ f, i ≠ .loadState f)
    (hs : s.TimeoutWhileTalking) : t.TimeoutWhileTalking := by
  cases h with
  | vru _ _ hv =>
    cases hv with
    | words => exact hs
    | talkOn => exact fun _ => rfl
    | reset | talkOff => exact fun he => absurd rfl he
  | switched =>
    rw [switchCompleted_eq]
    exact hs
  | reset hr =>
    cases hr
    exact fun he => absurd rfl he
  | loaded => exact absurd rfl (hi _)
  | fatal | answer | switch | command | carried | pageLoad | flashDma | sram | installed => exact hs

theorem Taken.timeoutWhileTalking {i : Input} {s t : State} (h : Taken s i t)
    (hi : ∀ f, i ≠ .op (.bus (.loadState f))) (hs : s.TimeoutWhileTalking) : t.TimeoutWhileTalking := by
  cases h with
  | op h hload => exact h.timeoutWhileTalking (fun f hf => hi f (congrArg Input.op (hload f hf))) hs
  | _ => exact hs

/-- Settles O5: the timeout is stamped where `talking` is switched on and cancelled wherever it is switched off. -/
theorem stepKeepsTimeoutWhileTalking : Obligations.StepKeepsTimeoutWhileTalking := by
  intro s t hload hs h
  obtain rfl | ⟨i, rest, htaken, hi⟩ := step_taken_of_noLoad hload h
  · exact hs
  · exact htaken.timeoutWhileTalking hi hs

end Sys2Proof.Machine
end

section
/-! Whole-machine rules of the operations: latches, the outside world, the mode and the success bits. -/

namespace Sys2Proof.Machine

/-! ### Latches (60_exceptions.md R195, R196) -/

theorem Effect.fault_cases {i : Instr} {s t : State} (h : Effect s i t) :
    t.fault = s.fault ∨ i = .deviceReset ∨
      ∃ k info, latchOf s.fault (fatalSubsystem k) = none ∧ FatalTaken k info s t := by
  cases h with
  | fatal k info hk => exact .inr (.inr ⟨k, info, hk, rfl⟩)
  | reset => exact .inr (.inl rfl)
  | switched =>
    rw [switchCompleted_eq]
    exact .inl rfl
  | _ => exact .inl rfl

/-- Settles O53: a fatal finds its own latch clear, so it replaces none, and nothing but `DeviceReset` clears one. -/
theorem latchesAreSticky : Obligations.LatchesAreSticky := by
  intro i s t sub k h hi hk
  obtain hsame | hreset | ⟨k', info, hclear, rfl⟩ := (exec_effect h).fault_cases
  · rw [hsame, hk]
  · exact absurd hreset hi
  · have hsub : sub ≠ fatalSubsystem k' := by
      rintro rfl
      rw [hclear] at hk
      cases hk
    exact (latchOf_setLatch_other s.fault k' hsub).trans hk

/-- Settles O54: the one effect that changes a latch is a fatal's. -/
theorem fatalsArePrecise : Obligations.FatalsArePrecise := by
  intro i s t h hi hne
  obtain hsame | hreset | ⟨k, info, -, hfatal⟩ := (exec_effect h).fault_cases
  · exact absurd hsame hne
  · exact absurd hreset hi
  · exact ⟨k, info, hfatal⟩

/-! ### The outside world (70_reset_and_hazards.md R233) -/

theorem Effect.pif_len {i : Instr} {s t : State} (h : Effect s i t) : t.pif.len = s.pif.len := by
  cases h with
  | answer _ _ _ hm => exact hm.len
  | switch _ hm => exact hm.len
  | vru _ _ _ hm => exact hm.len
  | switched => rw [switchCompleted_eq]
  | reset hr =>
    cases hr
    exact Memory.writeBytes_len ..
  | fatal | command | carried | pageLoad | flashDma | sram | installed | loaded => rfl

theorem Effect.dram_len {i : Instr} {s t : State} (h : Effect s i t) : t.dram.len = s.dram.len := by
  cases h with
  | flashDma hm => exact hm.len
  | sram _ hm => exact hm.len
  | switched => rw [switchCompleted_eq]
  | reset hr => cases hr; rfl
  | fatal | answer | switch | vru | command | carried | pageLoad | installed | loaded => rfl

theorem FlashEffect.written_of_written {p : Params} {f f' : Flash} {i : Instr} (h : FlashEffect p f i f')
    (hw : f.written = true) : f'.written = true := by
  cases h with
  | erase | program => rfl
  | _ => exact hw

theorem Effect.flash_store_kept {i : Instr} {s t : State} (h : Effect s i t) (hi : i ≠ .deviceReset) :
    s.flash.store.len ≤ t.flash.store.len ∧ (s.flash.written = true → t.flash.written = true) := by
  cases h with
  | command hf => exact ⟨hf.store_grown.len, hf.written_of_written⟩
  | carried _ hf => exact ⟨hf.store_grown.len, hf.written_of_written⟩
  | flashDma _ hst => exact ⟨hst.len, id⟩
  | switched =>
    rw [switchCompleted_eq]
    exact ⟨Nat.le_refl _, id⟩
  | reset => exact absurd rfl hi
  | fatal | answer | switch | vru | pageLoad | sram | installed | loaded => exact ⟨Nat.le_refl _, id⟩

theorem Effect.sram_store_kept {i : Instr} {s t : State} (h : Effect s i t) (hi : i ≠ .deviceReset) :
    s.sram.store.len ≤ t.sram.store.len ∧ (s.sram.written = true → t.sram.written = true) := by
  cases h with
  | sram _ _ hst hw => exact ⟨hst.len, hw⟩
  | switched =>
    rw [switchCompleted_eq]
    exact ⟨Nat.le_refl _, id⟩
  | reset => exact absurd rfl hi
  | fatal | answer | switch | vru | command | carried | pageLoad | flashDma | installed | loaded =>
    exact ⟨Nat.le_refl _, id⟩

/-- Settles O56: no effect touches the outside world's fields, and the stores only grow and get dirty. -/
theorem operationsLeaveTheOutsideWorld : Obligations.OperationsLeaveTheOutsideWorld := by
  intro i s t h
  have he := exec_effect h
  obtain ⟨hparams, hnow, hui, hinbox⟩ := he.outside_eq
  refine ⟨hparams, hnow, hui, hinbox, he.pif_len, he.dram_len, fun hi => ?_⟩
  obtain ⟨hflash, hflashWritten⟩ := he.flash_store_kept hi
  obtain ⟨hsram, hsramWritten⟩ := he.sram_store_kept hi
  exact ⟨hflash, hsram, hflashWritten, hsramWritten⟩

/-! ### The mode and the success bits (43_flashram.md R149, 10_state.md R18, R19) -/

theorem carriesCommand_iff {addr : Nat} {mask : Word} :
    carriesCommand addr mask = true ↔ addr % 131072 = 0x10000 ∧ mask = 0xFFFFFFFF#32 := by
  rw [carriesCommand, Bool.and_eq_true, beq_iff_eq, beq_iff_eq, off17_eq_mod]

/-- What has a FlashRAM command's effect is encoded as a command word, and so decodes from one. -/
theorem FlashEffect.decodes {p : Params} {f f' : Flash} {i : Instr} (h : FlashEffect p f i f') :
    ∃ w, decode (.flcmd w) = .ok i := by
  have henc : ∃ w, encode i = .flcmd w := by cases h <;> exact ⟨_, rfl⟩
  obtain ⟨w, hw⟩ := henc
  exact ⟨w, hw ▸ decode_encode i⟩

/-- Settles O57: the effects on the FlashRAM device that are no command leave the mode alone. -/
theorem onlyFlashCommandsChangeTheMode : Obligations.OnlyFlashCommandsChangeTheMode := by
  intro i s t h hne
  obtain ⟨-, hmode⟩ | ⟨j, hf, rfl | ⟨a, v, m, rfl, hc⟩⟩ | hreset | hload := (exec_effect h).flash_cases
  · exact absurd hmode hne
  · exact .inl hf.decodes
  · obtain ⟨ha, rfl⟩ := carriesCommand_iff.mp hc
    exact .inr (.inl ⟨a, v, rfl, ha⟩)
  · exact .inr (.inr (.inl hreset))
  · exact .inr (.inr (.inr hload))

/-- Settles O39: a command clears busy bits only, and those are neither the success bits nor an unnamed one. -/
theorem successBitsAreSticky : Obligations.SuccessBitsAreSticky := by
  intro i s t hp h hi hload
  obtain ⟨hst, -⟩ | ⟨j, hf, -⟩ | hreset | ⟨f, hf⟩ := (exec_effect h).flash_cases
  · rw [hst]
    exact ⟨fun _ _ => id, fun _ _ => rfl⟩
  · exact ⟨fun _ hb => hf.success_sticky (distinctBits_of_paramsOk hp) hb, fun _ => hf.unnamed_bit⟩
  · exact absurd hreset hi
  · exact absurd hf (hload f)

end Sys2Proof.Machine
end

section
/-! The direct form of the CRC-8 (40_crc8.md R83), and the extensionality of canonical memories (20_memory.md). -/

namespace Sys2Proof.Machine

/-! ### The generator is linear -/

/-- The polynomial's share of a bit-step, by the tap. -/
def crcTap (tap : Bool) : Byte := if tap then 0x85#8 else 0x00#8

/-- The input bit's share of a bit-step. -/
def crcInput (input : Bool) : Byte := if input then 0x01#8 else 0x00#8

theorem crcTap_xor (a b : Bool) : crcTap (a ^^ b) = crcTap a ^^^ crcTap b := by
  cases a <;> cases b <;> rfl

theorem crcInput_xor (a b : Bool) : crcInput (a ^^ b) = crcInput a ^^^ crcInput b := by
  cases a <;> cases b <;> rfl

theorem and_0x80_ne_zero_iff (r : Byte) : r &&& 0x80#8 ≠ 0#8 ↔ r.msb = true := by
  revert r
  decide

/-- The input enters where the shift leaves a zero, so a bit-step is three summands. -/
theorem crcBit_eq_xor (r : Byte) (input : Bool) :
    crcBit r input = (r <<< 1) ^^^ crcInput input ^^^ crcTap r.msb := by
  have hor : (r <<< 1) ||| crcInput input = (r <<< 1) ^^^ crcInput input := by
    revert r input
    decide
  have htap : (if r &&& 0x80#8 ≠ 0#8 then 0x85#8 else 0x00#8 : Byte) = crcTap r.msb := by
    simp only [and_0x80_ne_zero_iff, crcTap]
  rw [← hor, ← htap]
  rfl

theorem crcBit_xor (r r' : Byte) (a b : Bool) : crcBit (r ^^^ r') (a ^^ b) = crcBit r a ^^^ crcBit r' b := by
  simp only [crcBit_eq_xor, BitVec.shiftLeft_xor_distrib, crcInput_xor, BitVec.msb_xor, crcTap_xor]
  ac_rfl

theorem crcRound_xor (r r' b b' : Byte) : crcRound (r ^^^ r') (b ^^^ b') = crcRound r b ^^^ crcRound r' b' := by
  unfold crcRound
  generalize ([7, 6, 5, 4, 3, 2, 1, 0] : List Nat) = ks
  induction ks generalizing r r' with
  | nil => rfl
  | cons k ks ih => rw [List.foldl_cons, List.foldl_cons, List.foldl_cons, BitVec.getLsbD_xor, crcBit_xor, ih]

/-- A byte that enters a zero register is the register: no tap is set on its way in. -/
theorem crcRound_zero_left (b : Byte) : crcRound 0x00#8 b = b := by
  revert b
  decide

/-! ### The flush round -/

/-- A round of zero bits, as R83 writes it: a zero input leaves the shift and the tap. -/
theorem crcRound_zero_right (r : Byte) : crcRound r 0x00#8 = crcRoundDirect r 0x00#8 := by
  have hbit : ∀ (r : Byte) (k : Nat), crcBit r ((0x00#8).getLsbD k) =
      (r <<< 1) ^^^ (if r &&& 0x80#8 ≠ 0#8 then 0x85#8 else 0x00#8) := fun r k => by
    rw [BitVec.getLsbD_zero, crcBit, if_neg Bool.false_ne_true, BitVec.or_zero]
  simp only [crcRound, crcRoundDirect, hbit, BitVec.xor_zero]
  rfl

theorem crcRoundDirect_eq (r b : Byte) : crcRoundDirect r b = crcRound (r ^^^ b) 0x00#8 := by
  rw [crcRound_zero_right]
  simp only [crcRoundDirect, BitVec.xor_zero]

/-- The flushed register is the direct form's register, one byte at a time: flushing after a byte is adding the byte
to the flushed register and shifting eight zeros in. -/
theorem crcRound_flush (r b : Byte) : crcRound (crcRound r b) 0x00#8 = crcRoundDirect (crcRound r 0x00#8) b := by
  have hbyte : crcRound r b = crcRound r 0x00#8 ^^^ b := by
    calc crcRound r b = crcRound (r ^^^ 0x00#8) (0x00#8 ^^^ b) := by rw [BitVec.xor_zero, BitVec.zero_xor]
      _ = crcRound r 0x00#8 ^^^ b := by rw [crcRound_xor, crcRound_zero_left]
  rw [crcRoundDirect_eq, hbyte]

theorem crc_foldl_flush (bs : List Byte) (r : Byte) :
    crcRound (bs.foldl crcRound r) 0x00#8 = bs.foldl crcRoundDirect (crcRound r 0x00#8) := by
  induction bs generalizing r with
  | nil => rfl
  | cons b bs ih => rw [List.foldl_cons, List.foldl_cons, ih, crcRound_flush]

/-- Settles O59: by linearity of a round, and induction on the bytes with the register general. -/
theorem crcEqualsTheDirectForm : Obligations.CrcEqualsTheDirectForm := by
  intro bs
  rw [crcBytes, crc_foldl_flush, crcRound_zero]
  rfl

/-! ### Canonical memories -/

theorem cellsGet_head (blank : Byte) (a : Nat) (v : Byte) (rest : List Host.Cell) :
    cellsGet blank ((a, v) :: rest) a = v := if_pos rfl

/-- A listed byte is not blank, so of two lists that read the same neither can begin before the other. -/
theorem cells_head_le {blank : Byte} {len lo lo' a b : Nat} {v w : Byte} {cs ds : List Host.Cell}
    (h : cellsOk blank len lo ((a, v) :: cs) = true) (h' : cellsOk blank len lo' ((b, w) :: ds) = true)
    (hget : cellsGet blank ((a, v) :: cs) a = cellsGet blank ((b, w) :: ds) a) : b ≤ a := by
  by_contra hab
  obtain ⟨-, -, hv, -⟩ := cellsOk_cons.mp h
  obtain ⟨-, hb, hw, hds⟩ := cellsOk_cons.mp h'
  have hok : cellsOk blank len b ((b, w) :: ds) = true := cellsOk_cons.mpr ⟨Nat.le_refl b, hb, hw, hds⟩
  rw [cellsGet_head, cellsGet_below hok (by omega)] at hget
  exact hv hget

theorem cells_ext {blank : Byte} {len : Nat} {cs ds : List Host.Cell} {lo lo' : Nat}
    (h : cellsOk blank len lo cs = true) (h' : cellsOk blank len lo' ds = true)
    (hget : ∀ i, cellsGet blank cs i = cellsGet blank ds i) : cs = ds := by
  induction cs generalizing ds lo lo' with
  | nil =>
    cases ds with
    | nil => rfl
    | cons d ds =>
      obtain ⟨b, w⟩ := d
      exact absurd ((hget b).trans (cellsGet_head ..)).symm (cellsOk_cons.mp h').2.2.1
  | cons c cs ih =>
    obtain ⟨a, v⟩ := c
    cases ds with
    | nil => exact absurd ((cellsGet_head ..).symm.trans (hget a)) (cellsOk_cons.mp h).2.2.1
    | cons d ds =>
      obtain ⟨b, w⟩ := d
      have hab : a = b := Nat.le_antisymm (cells_head_le h' h (hget b).symm) (cells_head_le h h' (hget a))
      subst hab
      have hvw : v = w := by rw [← cellsGet_head blank a v cs, hget a, cellsGet_head]
      obtain ⟨-, -, -, hcs⟩ := cellsOk_cons.mp h
      obtain ⟨-, -, -, hds⟩ := cellsOk_cons.mp h'
      have htail : cs = ds := by
        refine ih hcs hds fun i => ?_
        by_cases hi : i = a
        · rw [cellsGet_below hcs (by omega), cellsGet_below hds (by omega)]
        · simpa only [cellsGet, if_neg hi] using hget i
      rw [hvw, htail]

theorem Memory.cellsGet_eq_read {sp : Space} {m : Memory} {i : Nat} (h : i < m.len) :
    cellsGet sp.blank m.cells i = m.read sp i := by
  rw [Memory.read, if_pos h]

/-- Settles O60: bytes beyond the length read blank in both lists, so the lists read the same everywhere and begin at
the same index, cell after cell. -/
theorem canonicalMemoriesAreExtensional : Obligations.CanonicalMemoriesAreExtensional := by
  intro sp m n hm hn hlen hread
  have hcells : m.cells = n.cells := by
    have hn' : cellsOk sp.blank m.len 0 n.cells = true := hlen ▸ hn
    refine cells_ext hm hn' fun i => ?_
    by_cases hi : i < m.len
    · rw [Memory.cellsGet_eq_read hi, hread i hi, Memory.cellsGet_eq_read (hlen ▸ hi)]
    · rw [cellsGet_above hm (by omega), cellsGet_above hn' (by omega)]
  cases m
  cases n
  cases hlen
  cases hcells
  rfl

end Sys2Proof.Machine
end

section
/-! The reset state, and how a step presents an operation (10_state.md section 8, 41_channel_dispatcher.md R90). -/

namespace Sys2Proof.Machine

/-! ### The reset state -/

theorem reset_wf : State.reset.WF where
  params := by decide
  pif := rfl
  flash := rfl
  sram := rfl
  dram := rfl
  pageBuf := List.length_replicate
  wordBuffer := List.length_replicate
  handedFlash := rfl
  handedSram := rfl
  inbox := fun _ hi => absurd hi List.not_mem_nil

theorem reset_switchPending : State.reset.SwitchPending :=
  fun c hc => absurd (congrArg Chan.changePak (Quad.get_all (⟨none, none⟩ : Chan) c)) hc

theorem reset_eraseBusyClear : State.reset.EraseBusyClear := BitVec.zero_and

theorem reset_timeoutWhileTalking : State.reset.TimeoutWhileTalking := fun he => absurd rfl he

/-- Settles O1: the table's values are those of the definition, and the four invariants hold of them. -/
theorem resetStateIsAsSpecified : Obligations.ResetStateIsAsSpecified :=
  ⟨rfl, rfl, rfl, rfl, rfl, rfl, rfl, rfl, rfl, rfl, rfl, rfl, rfl, rfl, reset_wf, reset_switchPending,
    reset_eraseBusyClear, reset_timeoutWhileTalking, rfl⟩

/-! ### One step -/

theorem step_of_inbox {s : State} {i : Input} {rest : List Input} (h : s.inbox = i :: rest) :
    step s = takeInput i (s.setInbox rest) := by
  rw [step, h]

theorem commandIndex_inside {size t : Nat} (h : t < size) : commandIndex size (some t) = some t := if_pos h

theorem commandIndex_outside {size : Nat} {tx : Option Nat} (h : ∀ t, tx = some t → size ≤ t) :
    commandIndex size tx = none := by
  cases tx with
  | none => rfl
  | some t => exact if_neg (Nat.not_lt.mpr (h t rfl))

theorem presentFrame_of_decode {c : Channel} {t : Nat} {rx : Option Nat} {s : State} {i : Instr}
    (hgate : pifGate c s = none) (ht : t < s.pif.len) (hi : decode (fetchFrame c t rx s) = .ok i) :
    presentFrame c (some t) rx s = exec i s := by
  rw [presentFrame, hgate]
  dsimp only
  rw [commandIndex_inside ht]
  dsimp only
  rw [hi]

theorem presentFrame_of_reject {c : Channel} {t : Nat} {rx : Option Nat} {s : State} {e : Reject}
    (hgate : pifGate c s = none) (ht : t < s.pif.len) (he : decode (fetchFrame c t rx s) = .error e) :
    presentFrame c (some t) rx s = unknownJcmd (s.pifByte t) s := by
  rw [presentFrame, hgate]
  dsimp only
  rw [commandIndex_inside ht]
  dsimp only
  rw [he]

theorem presentFrame_of_outside {c : Channel} {tx rx : Option Nat} {s : State} (hgate : pifGate c s = none)
    (ht : ∀ t, tx = some t → s.pif.len ≤ t) :
    presentFrame c tx rx s = raiseFatal .pifContract (.frame c tx rx) s := by
  rw [presentFrame, hgate]
  dsimp only
  rw [commandIndex_outside ht]

theorem presentBus_of_decode {b : BusOp} {s : State} {i : Instr} (hi : decode (fetchBus b) = .ok i) :
    presentBus b s = exec i s := by
  rw [presentBus, hi]

/-- Settles O9: behind the gate and the bound the frame's fetch is the byte at `tx_buf`. -/
theorem stepRunsTheFrameCommand : Obligations.StepRunsTheFrameCommand := by
  intro s c t rx rest i hinbox hgate ht hi
  rw [step_of_inbox hinbox]
  exact presentFrame_of_decode (s := s.setInbox rest) hgate ht hi

theorem fetchBus_command (a : Nat) (v : Word) (ha : a % 131072 = 0x10000) :
    fetchBus (.flashMmioWrite a v 0xFFFFFFFF#32) = .flcmd v := if_pos (carriesCommand_iff.mpr ⟨ha, rfl⟩)

/-- Settles O10: a bus operation runs what its fetch decodes to, and a full-width write at the command port fetches the
word it carries. -/
theorem stepRunsTheBusOperation : Obligations.StepRunsTheBusOperation := by
  refine ⟨fun s b rest i hinbox hi => ?_, fetchBus_command⟩
  rw [step_of_inbox hinbox]
  exact presentBus_of_decode hi

/-- Settles O11: the codes between the map's last low code and `0xFF` are outside it. -/
theorem unknownCommandIsLoggedOnly : Obligations.UnknownCommandIsLoggedOnly := by
  intro s c t rx rest hinbox hpif hdev ht hlo hhi
  have hcode : s.pifByte t ∉ [0x00#8, 0x01#8, 0x02#8, 0x03#8, 0xFF#8] := by
    intro hmem
    simp only [List.mem_cons, List.not_mem_nil, or_false] at hmem
    obtain h | h | h | h | h := hmem <;> simp [h] at hlo hhi
  have hreject : decode (fetchFrame c t rx (s.setInbox rest)) = .error (.unknownJcmd (s.pifByte t)) := by
    have hfetch : fetchFrame c t rx (s.setInbox rest) = .jcmd (s.device c) c t rx (s.pifByte t) := rfl
    rw [hfetch, hdev, decode_controller_of_none (decodeControllerCode_eq_none hcode)]
  have hgate : pifGate c (s.setInbox rest) = none := pifGate_controller hpif hdev
  rw [step_of_inbox hinbox]
  exact presentFrame_of_reject hgate ht hreject

end Sys2Proof.Machine
end

section
/-! Broken frames (20_memory.md R42, 41_channel_dispatcher.md R90), and what has no step (60_exceptions.md R196). -/

namespace Sys2Proof.Machine

/-! ### The contract fatal -/

theorem fatalTaken_of_raiseFatal {k : FatalKind} {info : FatalInfo} {s : State} {r : Result}
    (h : r = raiseFatal k info s) : ∃ t, r = .next t ∧ FatalTaken k info s t :=
  ⟨_, h.trans (raiseFatal_eq ..), rfl⟩

/-- A footprint that leaves PIF RAM, or lacks a response part it needs. -/
def FrameBroken (size tx : Nat) (rx : Option Nat) (txLen rxLen : Nat) : Prop :=
  size < tx + txLen ∨ (rx = none ∧ rxLen ≠ 0) ∨ ∃ r, rx = some r ∧ size < r + rxLen

theorem frameStart_broken {size tx txLen rxLen : Nat} {rx : Option Nat} (h : FrameBroken size tx rx txLen rxLen) :
    frameStart size tx rx txLen rxLen = none := by
  refine Option.eq_none_iff_forall_ne_some.mpr fun r hr => ?_
  obtain ⟨htx, ⟨rfl, hrx⟩ | ⟨rfl, hrx, -⟩⟩ := frameStart_some hr
  · obtain h | ⟨h, -⟩ | ⟨r', h, hlt⟩ := h
    · omega
    · cases h
    · cases h
      omega
  · obtain h | ⟨-, h⟩ | ⟨r', h, -⟩ := h
    · omega
    · exact h hrx
    · cases h

/-- A frame whose command takes the contract fatal wherever it starts takes it when it does not fit either. -/
theorem withFrame_fatal {c : Channel} {tx txLen rxLen : Nat} {rx : Option Nat} {s : State} {run : Nat → Result}
    (hgate : pifGate c s = none)
    (hrun : ∀ r, frameStart s.pif.len tx rx txLen rxLen = some r →
      run r = raiseFatal .pifContract (.frame c (some tx) rx) s) :
    withFrame c tx rx txLen rxLen s run = raiseFatal .pifContract (.frame c (some tx) rx) s := by
  rw [withFrame, hgate]
  dsimp only
  cases h : frameStart s.pif.len tx rx txLen rxLen with
  | none => rfl
  | some r => exact hrun r h

theorem withFrame_broken {c : Channel} {tx txLen rxLen : Nat} {rx : Option Nat} {s : State} (run : Nat → Result)
    (hgate : pifGate c s = none) (h : FrameBroken s.pif.len tx rx txLen rxLen) :
    withFrame c tx rx txLen rxLen s run = raiseFatal .pifContract (.frame c (some tx) rx) s :=
  withFrame_fatal hgate fun _ hr => nomatch (frameStart_broken h).symm.trans hr

theorem withControllerFrame_eq {c : Channel} {tx txLen rxLen : Nat} {rx : Option Nat} {s : State}
    (run : Nat → Result) (hpif : s.fault.pif = none) (hdev : s.device c = .controller) :
    withControllerFrame c tx rx txLen rxLen s run = withFrame c tx rx txLen rxLen s run := by
  rw [withControllerFrame, pifGate_controller hpif hdev, hdev]

theorem withVruFrame_eq {c : Channel} {tx txLen rxLen : Nat} {rx : Option Nat} {s : State} (run : Nat → Result)
    (hpif : s.fault.pif = none) (hvru : s.fault.vru = none) (hdev : s.device c = .vru) :
    withVruFrame c tx rx txLen rxLen s run = withFrame c tx rx txLen rxLen s run := by
  rw [withVruFrame, pifGate_vru hpif hdev hvru, hdev]

theorem brokenControllerFrame_isFatal (s : State) (c : Channel) (tx : Nat) (rx : Option Nat)
    (hpif : s.fault.pif = none) (hdev : s.device c = .controller) :
    ∀ p ∈ [(Instr.status c tx rx, 1, 3), (.controllerRead c tx rx, 1, 4), (.pakRead c tx rx, 3, 33),
        (.pakWrite c tx rx, 35, 1), (.reset c tx rx, 1, 3)],
      FrameBroken s.pif.len tx rx p.2.1 p.2.2 →
      exec p.1 s = raiseFatal .pifContract (.frame c (some tx) rx) s := by
  have hgate : pifGate c s = none := pifGate_controller hpif hdev
  intro p hp hbroken
  simp only [List.mem_cons, List.not_mem_nil, or_false] at hp
  obtain rfl | rfl | rfl | rfl | rfl := hp
  · exact withFrame_broken _ hgate hbroken
  · exact (withControllerFrame_eq _ hpif hdev).trans (withFrame_broken _ hgate hbroken)
  · exact (withControllerFrame_eq _ hpif hdev).trans (withFrame_broken _ hgate hbroken)
  · exact (withControllerFrame_eq _ hpif hdev).trans (withFrame_broken _ hgate hbroken)
  · exact withFrame_broken _ hgate hbroken

theorem brokenVruFrame_isFatal (s : State) (c : Channel) (tx : Nat) (rx : Option Nat)
    (hpif : s.fault.pif = none) (hvru : s.fault.vru = none) (hdev : s.device c = .vru) :
    ∀ p ∈ [(Instr.status c tx rx, 3), (.reset c tx rx, 3), (.vruRead c tx rx, s.params.vruReadLen),
        (.vruReadStatus c tx rx, s.params.vruReadStatusLen), (.vruWriteConfig c tx rx, s.params.vruWriteConfigLen)],
      FrameBroken s.pif.len tx rx 1 p.2 → exec p.1 s = raiseFatal .pifContract (.frame c (some tx) rx) s := by
  have hgate : pifGate c s = none := pifGate_vru hpif hdev hvru
  intro p hp hbroken
  simp only [List.mem_cons, List.not_mem_nil, or_false] at hp
  obtain rfl | rfl | rfl | rfl | rfl := hp
  · exact withFrame_broken _ hgate hbroken
  · exact withFrame_broken _ hgate hbroken
  · exact (withVruFrame_eq _ hpif hvru hdev).trans (withFrame_broken _ hgate hbroken)
  · exact (withVruFrame_eq _ hpif hvru hdev).trans (withFrame_broken _ hgate hbroken)
  · exact (withVruFrame_eq _ hpif hvru hdev).trans (withFrame_broken _ hgate hbroken)

theorem brokenWindow_isFatal {s : State} {c : Channel} {tx : Nat} (rx : Option Nat)
    (hpif : s.fault.pif = none) (hvru : s.fault.vru = none) (hdev : s.device c = .vru)
    (hwindow : s.pif.len < vruWindowStart s.params tx + 4) :
    exec (.vruWriteConfig c tx rx) s = raiseFatal .pifContract (.frame c (some tx) rx) s :=
  (withVruFrame_eq _ hpif hvru hdev).trans
    (withFrame_fatal (pifGate_vru hpif hdev hvru) fun _ _ => if_neg (Nat.not_le.mpr hwindow))

/-- In the words of the obligation: every response the frame could have is absent or too long. -/
theorem frameBroken_of_forall {size tx txLen rxLen : Nat} {rx : Option Nat} (hrx : rxLen ≠ 0)
    (h : size < tx + txLen ∨ ∀ r, rx = some r → size < r + rxLen) : FrameBroken size tx rx txLen rxLen := by
  obtain h | h := h
  · exact .inl h
  · cases rx with
    | none => exact .inr (.inl ⟨rfl, hrx⟩)
    | some r => exact .inr (.inr ⟨r, rfl, h r rfl⟩)

/-- Settles O12: no test but the footprint's stands between the gate and the fatal; the window of `WRITE_CONFIG` is
tested behind it and takes the same fatal. -/
theorem brokenFrameContractIsFatal : Obligations.BrokenFrameContractIsFatal := by
  refine ⟨fun s c tx rx rest hinbox hgate htx => ?_, fun s c tx rx hpif hdev p hp hbroken => ?_,
    fun s c tx rx hpif hvru hdev => ⟨fun p hp hbroken => ?_, fun hwindow => ?_⟩⟩
  · exact fatalTaken_of_raiseFatal ((step_of_inbox hinbox).trans
      (presentFrame_of_outside (s := s.setInbox rest) hgate htx))
  · have hrx : p.2.2 ≠ 0 := by
      have hall : ∀ q ∈ [(Instr.status c tx rx, 1, 3), (.controllerRead c tx rx, 1, 4), (.pakRead c tx rx, 3, 33),
          (.pakWrite c tx rx, 35, 1), (.reset c tx rx, 1, 3)], q.2.2 ≠ 0 := by simp
      exact hall p hp
    exact fatalTaken_of_raiseFatal
      (brokenControllerFrame_isFatal s c tx rx hpif hdev p hp (frameBroken_of_forall hrx hbroken))
  · exact fatalTaken_of_raiseFatal (brokenVruFrame_isFatal s c tx rx hpif hvru hdev p hp hbroken)
  · exact fatalTaken_of_raiseFatal (brokenWindow_isFatal rx hpif hvru hdev hwindow)

/-! ### Halted subsystems -/

theorem withFrame_refused {c : Channel} {tx txLen rxLen : Nat} {rx : Option Nat} {s : State} {run : Nat → Result}
    {e : Refusal} (h : pifGate c s = some e) : withFrame c tx rx txLen rxLen s run = .refused e := by
  rw [withFrame, h]

theorem withControllerFrame_refused {c : Channel} {tx txLen rxLen : Nat} {rx : Option Nat} {s : State}
    {run : Nat → Result} {e : Refusal} (h : pifGate c s = some e) :
    withControllerFrame c tx rx txLen rxLen s run = .refused e := by
  rw [withControllerFrame, h]

theorem withVruFrame_refused {c : Channel} {tx txLen rxLen : Nat} {rx : Option Nat} {s : State}
    {run : Nat → Result} {e : Refusal} (h : pifGate c s = some e) :
    withVruFrame c tx rx txLen rxLen s run = .refused e := by
  rw [withVruFrame, h]

/-- Every frame stands behind the gate. -/
theorem exec_frame_refused {c : Channel} {s : State} {e : Refusal} (h : pifGate c s = some e) (tx : Nat)
    (rx : Option Nat) :
    ∀ i ∈ [Instr.status c tx rx, .controllerRead c tx rx, .pakRead c tx rx, .pakWrite c tx rx, .reset c tx rx,
        .vruRead c tx rx, .vruWrite c tx rx, .vruReadStatus c tx rx, .vruWriteConfig c tx rx,
        .vruWriteInit c tx rx], exec i s = .refused e := by
  intro i hi
  simp only [List.mem_cons, List.not_mem_nil, or_false] at hi
  obtain rfl | rfl | rfl | rfl | rfl | rfl | rfl | rfl | rfl | rfl := hi
  · exact withFrame_refused h
  · exact withControllerFrame_refused h
  · exact withControllerFrame_refused h
  · exact withControllerFrame_refused h
  · exact withFrame_refused h
  · exact withVruFrame_refused h
  · rw [exec_vruWrite, execVruWrite, h]
  · exact withVruFrame_refused h
  · exact withVruFrame_refused h
  · rw [exec_vruWriteInit, execVruWriteInit, h]

theorem pifGate_halted {c : Channel} {s : State} {k : FatalKind} (h : s.fault.pif = some k) :
    pifGate c s = some (.halted .pif) := by
  rw [pifGate, h]

theorem pifGate_vruHalted {c : Channel} {s : State} {k : FatalKind} (hpif : s.fault.pif = none)
    (hvru : s.fault.vru = some k) (hdev : s.device c = .vru) : pifGate c s = some (.halted .vru) := by
  rw [pifGate, hpif, hvru, hdev]

theorem exec_flash_halted {s : State} {k : FatalKind} (h : s.fault.flash = some k) (addr cart dram len : Nat)
    (a : Half) (value mask : Word) :
    ∀ i ∈ [Instr.flChipEraseMode, .flSectorEraseMode a, .flEraseExecute, .flProgramExecute a, .flPageProgramMode,
        .flStatusMode, .flReadSiliconIdMode, .flReadArrayMode, .flashMmioRead addr,
        .flashMmioWrite addr value mask, .flashDmaRead cart dram len, .flashDmaWrite cart dram len],
      exec i s = .refused (.halted .flash) := by
  intro i hi
  simp only [List.mem_cons, List.not_mem_nil, or_false] at hi
  obtain rfl | rfl | rfl | rfl | rfl | rfl | rfl | rfl | rfl | rfl | rfl | rfl := hi <;>
    exact unlessHalted_halted (sub := .flash) _ h

theorem exec_sram_halted {s : State} {k : FatalKind} (h : s.fault.sram = some k) (addr cart dram len : Nat)
    (value mask : Word) :
    ∀ i ∈ [Instr.sramMmioRead addr, .sramMmioWrite addr value mask, .sramDmaRead cart dram len,
        .sramDmaWrite cart dram len], exec i s = .refused (.halted .sram) := by
  intro i hi
  simp only [List.mem_cons, List.not_mem_nil, or_false] at hi
  obtain rfl | rfl | rfl | rfl := hi <;> exact unlessHalted_halted (sub := .sram) _ h

theorem exec_pif_halted {s : State} {k : FatalKind} (h : s.fault.pif = some k) (c : Channel) (kind : PakKind)
    (tx : Nat) (rx : Option Nat) :
    ∀ i ∈ [Instr.status c tx rx, .controllerRead c tx rx, .pakRead c tx rx, .pakWrite c tx rx, .reset c tx rx,
        .vruRead c tx rx, .vruWrite c tx rx, .vruReadStatus c tx rx, .vruWriteConfig c tx rx,
        .vruWriteInit c tx rx, .pakSwitchEvent, .installPak c kind], exec i s = .refused (.halted .pif) := by
  intro i hi
  obtain hi | hi := List.mem_append.mp (show i ∈ [Instr.status c tx rx, .controllerRead c tx rx, .pakRead c tx rx,
      .pakWrite c tx rx, .reset c tx rx, .vruRead c tx rx, .vruWrite c tx rx, .vruReadStatus c tx rx,
      .vruWriteConfig c tx rx, .vruWriteInit c tx rx] ++ [.pakSwitchEvent, .installPak c kind] from hi)
  · exact exec_frame_refused (pifGate_halted h) tx rx i hi
  · simp only [List.mem_cons, List.not_mem_nil, or_false] at hi
    obtain rfl | rfl := hi <;> exact unlessHalted_halted (sub := .pif) _ h

/-- `LoadState` is addressed to three subsystems and is refused by the first that is latched (log 28). -/
theorem exec_loadState_halted (s : State) (k : FatalKind) (f : Saved) :
    (s.fault.pif = some k → exec (.loadState f) s = .refused (.halted .pif)) ∧
    (s.fault.pif = none → s.fault.flash = some k → exec (.loadState f) s = .refused (.halted .flash)) ∧
    (s.fault.pif = none → s.fault.flash = none → s.fault.vru = some k →
      exec (.loadState f) s = .refused (.halted .vru)) := by
  refine ⟨fun h => unlessHalted_halted (sub := .pif) _ h, fun hpif h => ?_, fun hpif hflash h => ?_⟩
  · exact (unlessHalted_ready (sub := .pif) _ hpif).trans (unlessHalted_halted (sub := .flash) _ h)
  · exact (unlessHalted_ready (sub := .pif) _ hpif).trans
      ((unlessHalted_ready (sub := .flash) _ hflash).trans (unlessHalted_halted (sub := .vru) _ h))

theorem exec_pakSwitchEvent_notPending {s : State} (hf : s.fault.pif = none) (hn : s.events.pakSwitch = none) :
    exec .pakSwitchEvent s = .refused (.eventNotPending .pakSwitch) := by
  have h : exec .pakSwitchEvent s = _ := unlessHalted_ready (sub := .pif) _ hf
  rw [h, hn]

theorem exec_vruTimeoutEvent_notPending {s : State} (hf : s.fault.vru = none) (hn : s.events.vruTimeout = none) :
    exec .vruTimeoutEvent s = .refused (.eventNotPending .vruTimeout) := by
  have h : exec .vruTimeoutEvent s = _ := unlessHalted_ready (sub := .vru) _ hf
  rw [h, hn]

/-- Settles O55: each operation stands behind the latch of its subsystem, a frame behind the gate, and an event behind
its registration. -/
theorem latchedOrUnarmedOperationsHaveNoStep : Obligations.LatchedOrUnarmedOperationsHaveNoStep :=
  ⟨fun _ _ addr cart dram len a value mask h => exec_flash_halted h addr cart dram len a value mask,
    fun _ _ addr cart dram len value mask h => exec_sram_halted h addr cart dram len value mask,
    fun _ _ c kind tx rx h => exec_pif_halted h c kind tx rx,
    fun _ _ h => unlessHalted_halted (sub := .vru) _ h,
    fun _ _ _ tx rx hpif hvru hdev => exec_frame_refused (pifGate_vruHalted hpif hvru hdev) tx rx,
    exec_loadState_halted, fun _ => exec_pakSwitchEvent_notPending, fun _ => exec_vruTimeoutEvent_notPending⟩

end Sys2Proof.Machine
end

section
/-! The generic commands on a ready frame (41_channel_dispatcher.md R92 to R98, 45_vru.md R176, R177). -/

namespace Sys2Proof.Machine

/-! ### Frames -/

theorem pifGate_of_frameReady_controller {c : Channel} {tx r txLen rxLen : Nat} {s : State}
    (h : FrameReady .controller c tx r txLen rxLen s) : pifGate c s = none := by
  obtain ⟨hpif, hdev, -⟩ := h
  exact pifGate_controller hpif hdev

theorem pifGate_of_frameReady_vru {c : Channel} {tx r txLen rxLen : Nat} {s : State}
    (h : FrameReady .vru c tx r txLen rxLen s) : pifGate c s = none := by
  obtain ⟨hpif, hdev, hvru, -⟩ := h
  exact pifGate_vru hpif hdev (hvru rfl)

theorem ready_withFrame {d : Device} {c : Channel} {tx r txLen rxLen : Nat} {s : State} (run : Nat → Result)
    (h : FrameReady d c tx r txLen rxLen s) (hgate : pifGate c s = none) :
    withFrame c tx (some r) txLen rxLen s run = run r := by
  obtain ⟨-, -, -, htx, hrx⟩ := h
  exact withFrame_ready run hgate htx hrx

theorem ready_withControllerFrame {c : Channel} {tx r txLen rxLen : Nat} {s : State} (run : Nat → Result)
    (h : FrameReady .controller c tx r txLen rxLen s) :
    withControllerFrame c tx (some r) txLen rxLen s run = run r := by
  obtain ⟨hpif, hdev, -, htx, hrx⟩ := h
  exact withControllerFrame_ready run hpif hdev htx hrx

theorem ready_withVruFrame {c : Channel} {tx r txLen rxLen : Nat} {s : State} (run : Nat → Result)
    (h : FrameReady .vru c tx r txLen rxLen s) : withVruFrame c tx (some r) txLen rxLen s run = run r := by
  obtain ⟨hpif, hdev, hvru, htx, hrx⟩ := h
  exact withVruFrame_ready run hpif hdev (hvru rfl) htx hrx

theorem FrameReady.response_fits {d : Device} {c : Channel} {tx r txLen rxLen : Nat} {s : State}
    (h : FrameReady d c tx r txLen rxLen s) : r + rxLen ≤ s.pif.len := by
  obtain ⟨-, -, -, -, hrx⟩ := h
  exact hrx

/-! ### `STATUS` and `RESET` -/

theorem exec_status_controller {s : State} {c : Channel} {tx r : Nat} (h : FrameReady .controller c tx r 1 3 s) :
    exec (.status c tx (some r)) s = .next (s.putPif r (controllerIdent c s)) := by
  have hdev : s.device c ≠ .vru := by
    obtain ⟨-, hdev, -⟩ := h
    simp [hdev]
  exact (ready_withFrame _ h (pifGate_of_frameReady_controller h)).trans (if_neg hdev)

theorem exec_reset_controller {s : State} {c : Channel} {tx r : Nat} (h : FrameReady .controller c tx r 1 3 s) :
    exec (.reset c tx (some r)) s = .next (s.putPif r (controllerIdent c s)) := by
  have hdev : s.device c ≠ .vru := by
    obtain ⟨-, hdev, -⟩ := h
    simp [hdev]
  exact (ready_withFrame _ h (pifGate_of_frameReady_controller h)).trans (if_neg hdev)

theorem exec_status_vru {s : State} {c : Channel} {tx r : Nat} (h : FrameReady .vru c tx r 1 3 s) :
    exec (.status c tx (some r)) s = .next (s.putPif r (vruIdent s)).nextDraw := by
  obtain ⟨-, hdev, -⟩ := id h
  exact (ready_withFrame _ h (pifGate_of_frameReady_vru h)).trans (if_pos hdev)

theorem exec_reset_vru {s : State} {c : Channel} {tx r : Nat} (h : FrameReady .vru c tx r 1 3 s) :
    exec (.reset c tx (some r)) s = .next ((vruReset s).putPif r (vruIdent s)).nextDraw := by
  obtain ⟨-, hdev, -⟩ := id h
  exact (ready_withFrame _ h (pifGate_of_frameReady_vru h)).trans (if_pos hdev)

theorem controllerIdent_eq (c : Channel) (s : State) :
    controllerIdent c s = [s.params.flavor0, s.params.flavor1,
      if s.handler c = none then s.params.pakAbsent else s.params.pakPresent] := by
  cases h : s.handler c <;> simp [controllerIdent, h]

/-- Settles O13: both commands are the same three-byte answer. -/
theorem statusAndResetAnswer : Obligations.StatusAndResetAnswer := by
  intro s c tx r hwf h i hi
  have hexec : exec i s = .next (s.putPif r (controllerIdent c s)) := by
    simp only [List.mem_cons, List.not_mem_nil, or_false] at hi
    obtain rfl | rfl := hi
    · exact exec_status_controller h
    · exact exec_reset_controller h
  have hfits := h.response_fits
  rw [controllerIdent_eq] at hexec
  exact ⟨_, hexec, putPif_byte (k := 0) hwf.pif (by simp) hfits, putPif_byte (k := 1) hwf.pif (by simp) hfits,
    putPif_byte (k := 2) hwf.pif (by simp) hfits, putPif_unchanged hwf.pif rfl rfl, rfl⟩

/-- Settles O14: the answer is three free bytes, and `RESET` is the VRU reset of R177 beside it. -/
theorem vruStatusAndResetAnswer : Obligations.VruStatusAndResetAnswer := by
  intro s c tx r hwf h
  have hlen : (vruIdent s).length = 3 := (List.length_map ..).trans List.length_range
  exact ⟨⟨_, exec_status_vru h, putPif_unchanged hwf.pif rfl hlen, rfl⟩,
    ⟨_, exec_reset_vru h, putPif_unchanged hwf.pif rfl hlen, rfl, rfl, rfl, rfl⟩⟩

/-! ### `CONTROLLER_READ` -/

/-- The state in which the four input bytes have been written (R94). -/
def inputAnswered (c : Channel) (r : Nat) (s : State) : State := s.putPif r (bytesBe32 (s.ui.poll.get c).keys)

theorem inputAnswered_eq (c : Channel) (r : Nat) (s : State) :
    inputAnswered c r s = { s with pif := (inputAnswered c r s).pif } := rfl

/-- The start of a switch behind an answer in PIF RAM (R95). -/
theorem startSwitch_eq {s u : State} {m : Memory} {c : Channel} {k : Option PakKind} (hu : u = { s with pif := m })
    (hk : s.handler c = k) :
    startSwitch c u = { s with
      pif := (startSwitch c u).pif,
      events := { s.events with pakSwitch := some (s.now + s.params.clockRate) },
      chan := s.chan.set c ⟨none, k⟩ } := by
  subst hu hk
  rfl

theorem inputAnswered_written {s t : State} {c : Channel} {tx r : Nat} (hwf : s.WF)
    (h : FrameReady .controller c tx r 1 4 s) (ht : t.pif = (inputAnswered c r s).pif) :
    PifUnchangedOutside r 4 s t ∧
      ∀ k, k < 4 → t.pifByte (r + k) = (s.ui.poll.get c).keys.extractLsb' (24 - 8 * k) 8 := by
  refine ⟨putPif_unchanged hwf.pif ht (bytesBe32_length _), fun k hk => ?_⟩
  calc t.pifByte (r + k) = (inputAnswered c r s).pifByte (r + k) := by rw [State.pifByte, ht]; rfl
    _ = (bytesBe32 (s.ui.poll.get c).keys).getD k 0x00#8 := putPif_byte hwf.pif hk h.response_fits
    _ = _ := bytesBe32_getD _ hk

theorem exec_controllerRead_quiet {s : State} {c : Channel} {tx r : Nat} (h : FrameReady .controller c tx r 1 4 s)
    (hq : ¬((s.ui.poll.get c).gesture = true ∧ s.events.pakSwitch = none)) :
    exec (.controllerRead c tx (some r)) s = .next (inputAnswered c r s) :=
  (ready_withControllerFrame _ h).trans (if_neg hq)

theorem exec_controllerRead_switch {s : State} {c : Channel} {tx r : Nat} {k : PakKind}
    (h : FrameReady .controller c tx r 1 4 s) (hg : (s.ui.poll.get c).gesture = true)
    (hp : s.events.pakSwitch = none) (hk : s.handler c = some k) :
    exec (.controllerRead c tx (some r)) s = .next (startSwitch c (inputAnswered c r s)) := by
  refine (ready_withControllerFrame _ h).trans ((if_pos ⟨hg, hp⟩).trans ?_)
  rw [hk]
  rfl

theorem exec_controllerRead_noPak {s : State} {c : Channel} {tx r : Nat}
    (h : FrameReady .controller c tx r 1 4 s) (hg : (s.ui.poll.get c).gesture = true)
    (hp : s.events.pakSwitch = none) (hk : s.handler c = none) :
    exec (.controllerRead c tx (some r)) s =
      gestureWithoutPak c s (inputAnswered c r s) (.frame c (some tx) (some r)) := by
  refine (ready_withControllerFrame _ h).trans ((if_pos ⟨hg, hp⟩).trans ?_)
  rw [hk]
  rfl

/-- Settles O15: with a gesture that starts a switch or without, the PIF RAM of the answer is the one with the input
bytes written. -/
theorem controllerReadAnswersInput : Obligations.ControllerReadAnswersInput := by
  intro s c tx r hwf h hcase
  by_cases hq : (s.ui.poll.get c).gesture = true ∧ s.events.pakSwitch = none
  · obtain ⟨hg, hp⟩ := hq
    have hk : s.handler c ≠ none := by
      obtain hng | hnp | hk := hcase
      · exact absurd (hg.symm.trans hng) nofun
      · exact absurd hp hnp
      · exact hk
    obtain ⟨k, hk⟩ := Option.ne_none_iff_exists'.mp hk
    obtain ⟨hframe, hbytes⟩ := inputAnswered_written (t := startSwitch c (inputAnswered c r s)) hwf h rfl
    refine ⟨_, exec_controllerRead_switch h hg hp hk, hbytes, hframe, fun hno => ?_⟩
    obtain hng | hnp := hno
    · exact absurd (hg.symm.trans hng) nofun
    · exact absurd hp hnp
  · obtain ⟨hframe, hbytes⟩ := inputAnswered_written (t := inputAnswered c r s) hwf h rfl
    exact ⟨_, exec_controllerRead_quiet h hq, hbytes, hframe, fun _ => inputAnswered_eq c r s⟩

/-- Settles O16: the accepted gesture is the start of a switch behind the input bytes; with no handler the parameter
chooses between no step, the input bytes alone, the same start and the fatal. -/
theorem gestureStartsPakSwitch : Obligations.GestureStartsPakSwitch := by
  intro s c tx r hwf h hg hp
  have hwritten := inputAnswered_written (t := inputAnswered c r s) hwf h rfl
  have hstarted := inputAnswered_written (t := startSwitch c (inputAnswered c r s)) hwf h rfl
  refine ⟨fun k hk =>
    ⟨_, exec_controllerRead_switch h hg hp hk, hstarted, startSwitch_eq (inputAnswered_eq c r s) hk⟩, fun hk => ?_⟩
  have hexec := exec_controllerRead_noPak h hg hp hk
  unfold gestureWithoutPak at hexec
  refine ⟨fun hpolicy => ?_, fun hpolicy => ?_, fun hpolicy => ?_, fun hpolicy => ?_⟩ <;> rw [hpolicy] at hexec
  · exact hexec
  · exact ⟨_, hexec, hwritten, inputAnswered_eq c r s⟩
  · exact ⟨_, hexec, hstarted, startSwitch_eq (inputAnswered_eq c r s) hk⟩
  · exact fatalTaken_of_raiseFatal hexec

/-! ### `PAK_READ` and `PAK_WRITE` -/

theorem putPif_pifByte_other {s : State} (h : s.pif.wf .pif = true) {off j : Nat} {bs : List Byte}
    (hj : j < off ∨ off + bs.length ≤ j) : (s.putPif off bs).pifByte j = s.pifByte j :=
  Memory.read_writeBytes_other h bs hj

/-- Settles O17: the one byte written lies behind the region it seals. -/
theorem pakReadWithoutPak : Obligations.PakReadWithoutPak := by
  intro s c tx r hwf h hk
  exact ⟨_, exec_pakRead_of_noHandler h hk, putPif_single hwf.pif _ h.response_fits,
    putPif_unchanged hwf.pif rfl rfl, rfl⟩

/-- The chunk a handler delivers, byte by byte. -/
theorem pakModelRead_chunk {s : State} (hwf : s.pif.wf .pif = true) (call : PakCall)
    (hl : call.dataOffset + call.size ≤ s.pif.len) {n : Nat} (hn : n < call.size) :
    (pakModelRead call s).pifByte (call.dataOffset + n) =
      Config.pakReadByte call (s.pakState.get call.channel) n := by
  rw [pakModelRead_byte hwf, if_pos (by omega), Nat.add_sub_cancel_left]

/-- A response written behind a handler's `read` changes no field that the `read` did not. -/
theorem putPif_eq_of_pakAnswer {s u : State} {m : Memory} {p : Quad PakState}
    (hu : u = { s with pif := m, pakState := p }) (off : Nat) (bs : List Byte) :
    u.putPif off bs = { s with pif := (u.putPif off bs).pif, pakState := (u.putPif off bs).pakState } := by
  subst hu
  rfl

theorem pakModelRead_byte_other {s : State} (hwf : s.pif.wf .pif = true) (call : PakCall) {j : Nat}
    (hj : j < call.dataOffset ∨ call.dataOffset + call.size ≤ j) :
    (pakModelRead call s).pifByte j = s.pifByte j := by
  rw [pakModelRead_byte hwf, if_neg (by omega)]

/-- Settles O18: the chunk is the handler's, the check byte behind it leaves it as it is and is its CRC. -/
theorem pakReadWithPak : Obligations.PakReadWithPak := by
  intro s c tx r k hwf h hk call p
  have hfits := h.response_fits
  have hread : (pakModelRead call s).pif.wf .pif = true := pakModelRead_wf hwf.pif call
  have hlen : (pakModelRead call s).pif.len = s.pif.len := pakModelRead_len call s
  have hchunk : ∀ n, n < 32 → (pakModelRead call s).pifByte (r + n) = Config.pakReadByte call p n :=
    fun n hn => pakModelRead_chunk hwf.pif call (Nat.le_of_succ_le hfits) hn
  have hcrc : crc8 .pif (pakModelRead call s).pif r 32 = crcBytes ((List.range 32).map (Config.pakReadByte call p)) :=
    congrArg crcBytes (List.map_congr_left fun n hn => hchunk n (List.mem_range.mp hn))
  have hexec := exec_pakRead_of_handler h hk
  rw [show pakCall k c tx r s = call from rfl, hcrc] at hexec
  refine ⟨_, hexec, fun n hn => ?_, ?_, ⟨?_, fun a ha => ?_⟩, ?_, ?_, ?_⟩
  · exact (putPif_pifByte_other hread (.inl (Nat.add_lt_add_left hn r))).trans (hchunk n hn)
  · exact putPif_single hread _ (by rw [hlen]; exact hfits)
  · rw [putPif_len, hlen]
  · have hkeep : (pakModelRead call s).pifByte a = s.pifByte a :=
      pakModelRead_byte_other hwf.pif call (ha.imp_right (Nat.le_of_succ_le ·))
    have hcheck : a < r + 32 ∨ r + 32 + 1 ≤ a := by omega
    rw [putPif_pifByte_other (bs := [_]) hread hcheck, hkeep]
  · exact Quad.get_set_same ..
  · exact fun d hd => pakModelRead_otherPak call s hd
  · exact putPif_eq_of_pakAnswer (pakModelRead_eq call s) ..

/-- Settles O19: the check byte is the CRC of the data as the host sent it; a handler's `write` is beside it. -/
theorem pakWriteSealsTheData : Obligations.PakWriteSealsTheData := by
  intro s c tx r hwf h data
  have hfits := h.response_fits
  constructor
  · intro hk
    exact ⟨_, exec_pakWrite_of_noHandler h hk, putPif_single hwf.pif _ hfits, putPif_unchanged hwf.pif rfl rfl, rfl⟩
  · intro k hk call p
    exact ⟨_, exec_pakWrite_of_handler h hk, putPif_single hwf.pif _ hfits, putPif_unchanged hwf.pif rfl rfl,
      Quad.get_set_same .., fun d hd => pakModelWrite_otherPak call s hd, rfl⟩

/-- Settles O22: the three commands are tested for the channel's device behind the gate. -/
theorem pakCommandsAreOpenOnVru : Obligations.PakCommandsAreOpenOnVru := by
  intro s c tx rx hpif hvru hdev i hi
  have hopen : ∀ (txLen rxLen : Nat) (run : Nat → Result),
      withControllerFrame c tx rx txLen rxLen s run = .refused (.vruGenericOpen c) := fun txLen rxLen run => by
    rw [withControllerFrame, pifGate_vru hpif hdev hvru, hdev]
  simp only [List.mem_cons, List.not_mem_nil, or_false] at hi
  obtain rfl | rfl | rfl := hi <;> exact hopen ..

end Sys2Proof.Machine
end

section
/-! The VRU commands on a ready frame and the timeout (45_vru.md R178 to R189). -/

namespace Sys2Proof.Machine

/-! ### `VRU_READ` -/

theorem uiAnswers_eq_true {s : State} (ha : s.ui.attached = true) (hn : s.params.netplay = false) :
    uiAnswers s = true := by
  rw [uiAnswers, ha, hn]
  rfl

theorem vruReadOutputs_of_ui {s : State} (h : uiAnswers s = true) :
    vruReadOutputs s = [.vruPrompt s.vru.words, .vruIndex (vruAnswer s)] := by
  rw [vruReadOutputs, if_pos h]
  rfl

theorem vruAnswer_of_noChoice {s : State} (h : s.ui.choice = "") : vruAnswer s = Config.noMatch :=
  if_neg fun hc => hc.2 h

/-- The first place of the chosen word is what the search finds (log 34). -/
theorem vruAnswer_of_listed {s : State} {n : Nat} (hui : uiAnswers s = true) (hc : s.ui.choice ≠ "")
    (hn : s.vru.words[n]? = some s.ui.choice) (hfirst : ∀ m, m < n → s.vru.words[m]? ≠ some s.ui.choice) :
    vruAnswer s = n := by
  have hfind : s.vru.words.findIdx? (· == s.ui.choice) = some n := by
    obtain ⟨hlt, hget⟩ := List.getElem?_eq_some_iff.mp hn
    refine List.findIdx?_eq_some_iff_getElem.mpr ⟨hlt, beq_iff_eq.mpr hget, fun j hj hbeq => hfirst j hj ?_⟩
    exact List.getElem?_eq_some_iff.mpr ⟨hj.trans hlt, beq_iff_eq.mp hbeq⟩
  rw [vruAnswer, if_pos ⟨hui, hc⟩, hfind]

/-- Settles O46: the outputs of the completed read are the prompt and the index, by the three cases of the choice. -/
theorem vruReadAnswersTheChosenIndex : Obligations.VruReadAnswersTheChosenIndex := by
  intro s c tx r hwf h
  refine ⟨_, exec_vruRead_ready h, fun ha hn hc => ?_, fun n ha hn hc hget hfirst => ?_,
    putPif_unchanged hwf.pif rfl ((List.length_map ..).trans List.length_range), rfl⟩
  · have hout := vruReadOutputs_of_ui (uiAnswers_eq_true ha hn)
    rw [vruAnswer_of_noChoice hc] at hout
    exact congrArg (s.out ++ ·) hout
  · have hui := uiAnswers_eq_true ha hn
    have hout := vruReadOutputs_of_ui hui
    rw [vruAnswer_of_listed hui hc hget hfirst] at hout
    exact congrArg (s.out ++ ·) hout

/-! ### `VRU_READ_STATUS` -/

theorem exec_vruReadStatus_idle {s : State} {c : Channel} {tx r : Nat}
    (h : FrameReady .vru c tx r 1 s.params.vruReadStatusLen s) (hp : Config.vruWordsPending s.draws = false) :
    exec (.vruReadStatus c tx (some r)) s = vruStatusAnswer r s :=
  (ready_withVruFrame _ h).trans (if_neg (Bool.eq_false_iff.mp hp))

theorem exec_vruReadStatus_word {s : State} {c : Channel} {tx r : Nat} {w : String}
    (h : FrameReady .vru c tx r 1 s.params.vruReadStatusLen s) (hp : Config.vruWordsPending s.draws = true)
    (hw : decodedWord s = some w) :
    exec (.vruReadStatus c tx (some r)) s =
      vruStatusAnswer r (s.setVru { s.vru with words := s.vru.words ++ [w] }) := by
  refine (ready_withVruFrame _ h).trans ((if_pos hp).trans ?_)
  rw [hw]

theorem exec_vruReadStatus_unmapped {s : State} {c : Channel} {tx r : Nat}
    (h : FrameReady .vru c tx r 1 s.params.vruReadStatusLen s) (hp : Config.vruWordsPending s.draws = true)
    (hw : decodedWord s = none) :
    exec (.vruReadStatus c tx (some r)) s =
      raiseFatal .vruUnmappedWord (.code (Config.vruHexCode s.vru.wordBuffer)) s := by
  refine (ready_withVruFrame _ h).trans ((if_pos hp).trans ?_)
  rw [hw]

theorem isJapanOrDemo_iff (p : Params) : isJapanOrDemo p = true ↔ p.romRegion = 0x4A#8 ∨ p.romRegion = 0x00#8 := by
  rw [isJapanOrDemo, Bool.or_eq_true, beq_iff_eq, beq_iff_eq]

theorem decodedWord_japan {s : State} (h : s.params.romRegion = 0x4A#8 ∨ s.params.romRegion = 0x00#8) :
    decodedWord s = some (Config.vruText s.vru.wordBuffer) := if_pos ((isJapanOrDemo_iff _).mpr h)

theorem decodedWord_dictionary {s : State} (h : ¬(s.params.romRegion = 0x4A#8 ∨ s.params.romRegion = 0x00#8)) :
    decodedWord s = s.params.wordMappings.lookup (Config.vruHexCode s.vru.wordBuffer) :=
  if_neg (mt (isJapanOrDemo_iff _).mp h)

/-- The status answer behind a change of the words completes and changes nothing else. -/
theorem vruStatusAnswer_completes {s : State} (hwf : s.WF) (r : Nat) (ws : List String) :
    ∃ t, vruStatusAnswer r (s.setVru { s.vru with words := ws }) = .next t ∧
      PifUnchangedOutside r s.params.vruReadStatusLen s t ∧
      t = { s with pif := t.pif, vru := { s.vru with words := ws }, draws := s.draws + 1 } :=
  ⟨_, rfl, putPif_unchanged hwf.pif rfl ((List.length_map ..).trans List.length_range), rfl⟩

/-- Settles O47: with nothing pending the words are answered as they are; else the region chooses the decoding, and a
code the dictionary lacks is the fatal. -/
theorem vruReadStatusDecodesPendingWords : Obligations.VruReadStatusDecodesPendingWords := by
  intro s c tx r hwf h code completes
  have hidle : Config.vruWordsPending s.draws = false → completes s.vru.words := fun hp => by
    obtain ⟨t, ht, hrest⟩ := vruStatusAnswer_completes hwf r s.vru.words
    exact ⟨t, (exec_vruReadStatus_idle h hp).trans ht, hrest⟩
  have hword : ∀ w, Config.vruWordsPending s.draws = true → decodedWord s = some w →
      completes (s.vru.words ++ [w]) := fun w hp hw => by
    obtain ⟨t, ht, hrest⟩ := vruStatusAnswer_completes hwf r (s.vru.words ++ [w])
    exact ⟨t, (exec_vruReadStatus_word h hp hw).trans ht, hrest⟩
  refine ⟨fun hregion => ?_, fun h4A h00 => ⟨hidle, fun hp => ?_⟩⟩
  · cases hp : Config.vruWordsPending s.draws with
    | false => exact hidle hp
    | true => exact hword _ hp (decodedWord_japan hregion)
  · have hdict := decodedWord_dictionary (not_or.mpr ⟨h4A, h00⟩)
    exact ⟨fun w hw => hword w hp (hdict.trans hw),
      fun hnone => fatalTaken_of_raiseFatal (exec_vruReadStatus_unmapped h hp (hdict.trans hnone))⟩

/-! ### `VRU_WRITE_CONFIG` -/

theorem exec_vruWriteConfig_ready {s : State} {c : Channel} {tx r : Nat}
    (h : FrameReady .vru c tx r 1 s.params.vruWriteConfigLen s)
    (hwindow : vruWindowStart s.params tx + 4 ≤ s.pif.len) :
    exec (.vruWriteConfig c tx (some r)) s =
      .next ((vruConfigure (crc8 .pif s.pif (vruWindowStart s.params tx) 4)
          (s.pif.bytes .pif tx (s.pif.len - tx)) s).putPif r
        ((List.range s.params.vruWriteConfigLen).map (Config.vruWriteConfigByte s.draws))).nextDraw :=
  (ready_withVruFrame _ h).trans (if_pos hwindow)

theorem vruConfigure_on (frame : List Byte) (s : State) :
    vruConfigure 0x4E#8 frame s = (s.setVru (talkOn s.vru)).setVruTimeout (some (s.now + 2 * s.params.clockRate)) :=
  if_pos rfl

theorem vruConfigure_off (frame : List Byte) (s : State) :
    vruConfigure 0xEF#8 frame s = (s.setVru (talkOff s.vru)).setVruTimeout none :=
  (if_neg (by decide)).trans (if_pos rfl)

theorem vruConfigure_other {k : Byte} (frame : List Byte) (s : State) (hon : k ≠ 0x4E#8) (hoff : k ≠ 0xEF#8) :
    vruConfigure k frame s = s ∨ vruConfigure k frame s = s.setVru { s.vru with words := [] } := by
  rw [vruConfigure, if_neg hon, if_neg hoff]
  split
  · exact .inr rfl
  · exact .inl rfl

/-- Settles O48: by the CRC of the window one of the three updates stands behind the answer. -/
theorem vruWriteConfigSwitchesTalking : Obligations.VruWriteConfigSwitchesTalking := by
  intro s c tx r hwf h hwindow k
  have hexec := exec_vruWriteConfig_ready h hwindow
  rw [show crc8 .pif s.pif (vruWindowStart s.params tx) 4 = k from rfl] at hexec
  generalize s.pif.bytes .pif tx (s.pif.len - tx) = frame at hexec
  obtain ⟨v, e, -, hu⟩ := vruConfigure_effect k frame s
  refine ⟨((vruConfigure k frame s).putPif r _).nextDraw, hexec, fun hk => ?_, fun hk => ?_, fun hon hoff => ?_,
    ?_, ?_⟩
  · rw [hk, vruConfigure_on]
    exact ⟨rfl, rfl⟩
  · rw [hk, vruConfigure_off]
    exact ⟨rfl, rfl⟩
  · obtain hsame | hclear := vruConfigure_other frame s hon hoff
    · rw [hsame]
      exact ⟨.inl rfl, rfl⟩
    · rw [hclear]
      exact ⟨.inr rfl, rfl⟩
  · rw [hu]
    exact putPif_unchanged hwf.pif rfl ((List.length_map ..).trans List.length_range)
  · rw [hu]
    rfl

/-! ### The timeout -/

/-- Settles O50: the pending event is one update of the VRU and of the registration. -/
theorem vruTimeoutClearsTalking : Obligations.VruTimeoutClearsTalking := by
  intro s n hf hn
  have h : exec .vruTimeoutEvent s = _ := unlessHalted_ready (sub := .vru) _ hf
  rw [h, hn]
  rfl

end Sys2Proof.Machine
end

section
/-! `DeviceReset` and `LoadState` (70_reset_and_hazards.md R225, R231). -/

namespace Sys2Proof.Machine

/-- Settles O51: the table field by field; a store is the one handed over, or the old one. -/
theorem deviceResetRestoresTheTable : Obligations.DeviceResetRestoresTheTable := by
  intro s
  refine ⟨_, rfl, rfl, rfl, rfl, Memory.writeBytes_len .., ⟨_, rfl, fun h => ?_, fun m h => ?_⟩, fun h => ?_,
    fun m h => ?_, rfl, rfl, rfl, (List.length_map ..).trans List.length_range, rfl, rfl, rfl, rfl, rfl, rfl, rfl⟩
  all_goals rw [h]; rfl

theorem wellFormed_iff (f : Saved) :
    f.wellFormed = true ↔ f.flashPageBuf.length = 128 ∧ f.vruWordBuffer.length = 40 := by
  rw [Saved.wellFormed, Saved.pageBufOk, Saved.wordBufferOk, Bool.and_eq_true, beq_iff_eq, beq_iff_eq]
  rfl

theorem exec_loadState_ready {s : State} {f : Saved} (hpif : s.fault.pif = none) (hflash : s.fault.flash = none)
    (hvru : s.fault.vru = none) :
    exec (.loadState f) s = if f.wellFormed = true then .next (loadSaved f s) else .fault .illTypedLoad :=
  (unlessHalted_ready (sub := .pif) _ hpif).trans
    ((unlessHalted_ready (sub := .flash) _ hflash).trans (unlessHalted_ready (sub := .vru) _ hvru))

/-- Settles O52: behind the three latches the two lengths decide. -/
theorem loadStateOverwritesThePersistedFields : Obligations.LoadStateOverwritesThePersistedFields := by
  intro s f hpif hflash hvru
  rw [exec_loadState_ready hpif hflash hvru]
  refine ⟨fun hpage hword => ?_, fun hlen => ?_⟩
  · exact ⟨_, if_pos ((wellFormed_iff f).mpr ⟨hpage, hword⟩), rfl, rfl, loadKinds_get s.chan f.kinds, rfl⟩
  · refine if_neg fun hf => ?_
    obtain ⟨hpage, hword⟩ := (wellFormed_iff f).mp hf
    exact hlen.elim (· hpage) (· hword)

end Sys2Proof.Machine
end

section
/-! The FlashRAM commands with an effect on the store or the status (43_flashram.md R130 to R135). -/

namespace Sys2Proof.Machine

/-! ### The commands on a device that is not halted -/

theorem exec_flReadSiliconIdMode_ready {s : State} (h : s.fault.flash = none) :
    exec .flReadSiliconIdMode s = .next (s.setFlash { s.flash with
      mode := .readSiliconId
      status := setStatus s.params.programBusyBit s.flash.status }) := unlessHalted_ready (sub := .flash) _ h

theorem sectorOutOfRange_iff (p : Half) : sectorOutOfRange p = true ↔ 0x0380 < (p.toNat &&& 0xFF80) :=
  decide_eq_true_iff

theorem pageOutOfRange_iff (p : Half) : pageOutOfRange p = true ↔ 0x03FF < p.toNat := decide_eq_true_iff

theorem exec_flEraseExecute_ready {s : State} (h : s.fault.flash = none)
    (hrange : s.flash.mode = .sectorErase → (s.flash.erasePage.toNat &&& 0xFF80) ≤ 0x0380) :
    exec .flEraseExecute s = .next (s.setFlash (erasedFlash s.params s.flash)) := by
  refine (unlessHalted_ready (sub := .flash) _ h).trans (if_neg ?_)
  rintro ⟨hmode, hout⟩
  exact Nat.not_lt.mpr (hrange hmode) ((sectorOutOfRange_iff _).mp hout)

theorem exec_flEraseExecute_outOfRange {s : State} (h : s.fault.flash = none) (hmode : s.flash.mode = .sectorErase)
    (hout : 0x0380 < (s.flash.erasePage.toNat &&& 0xFF80)) :
    exec .flEraseExecute s = raiseFatal .flashRange (.page s.flash.erasePage.toNat) s :=
  (unlessHalted_ready (sub := .flash) _ h).trans (if_pos ⟨hmode, (sectorOutOfRange_iff _).mpr hout⟩)

theorem exec_flProgramExecute_ready {s : State} {a : Half} (h : s.fault.flash = none) (ha : a.toNat ≤ 0x03FF) :
    exec (.flProgramExecute a) s = .next (s.setFlash (programmedFlash s.params a s.flash)) := by
  refine (unlessHalted_ready (sub := .flash) _ h).trans (if_neg ?_)
  rw [pageOutOfRange_iff]
  exact Nat.not_lt.mpr ha

theorem exec_flProgramExecute_outOfRange {s : State} {a : Half} (h : s.fault.flash = none) (ha : 0x03FF < a.toNat) :
    exec (.flProgramExecute a) s = raiseFatal .flashRange (.page a.toNat) s :=
  (unlessHalted_ready (sub := .flash) _ h).trans (if_pos ((pageOutOfRange_iff a).mpr ha))

/-- Settles O32: each command's range test is behind the latch and before any change. -/
theorem flashTargetsBeyondTheStoreAreFatal : Obligations.FlashTargetsBeyondTheStoreAreFatal :=
  fun _ h => ⟨fun hmode hout => fatalTaken_of_raiseFatal (exec_flEraseExecute_outOfRange h hmode hout),
    fun _ ha => fatalTaken_of_raiseFatal (exec_flProgramExecute_outOfRange h ha)⟩

/-! ### Erased stores -/

theorem erasedStore_len (f : Flash) : (erasedStore f).len = max f.store.len 131072 := by
  unfold erasedStore
  split <;> rfl

theorem erasedStore_sector {f : Flash} (h : f.mode = .sectorErase) :
    erasedStore f = (f.store.format Config.flashSize).erase (sectorBase f.erasePage) Config.sectorSize := by
  simp only [erasedStore, h]

theorem erasedStore_chip {f : Flash} (h : f.mode = .chipErase) :
    erasedStore f = (f.store.format Config.flashSize).erase 0 Config.flashSize := by
  simp only [erasedStore, h]

theorem erasedStore_other {f : Flash} (hs : f.mode ≠ .sectorErase) (hc : f.mode ≠ .chipErase) :
    erasedStore f = f.store.format Config.flashSize := by
  unfold erasedStore
  split
  · exact absurd ‹_› hs
  · exact absurd ‹_› hc
  all_goals rfl

theorem read_erase_inside {m : Memory} {lo n i : Nat} (hlo : lo ≤ i) (hi : i < lo + n) (hl : i < m.len) :
    (m.erase lo n).read .flash i = 0xFF#8 := by
  rw [Memory.read_erase, if_pos ⟨hlo, hi, hl⟩]
  rfl

theorem read_erase_outside (m : Memory) {lo n i : Nat} (h : i < lo ∨ lo + n ≤ i) :
    (m.erase lo n).read .flash i = m.read .flash i := by
  rw [Memory.read_erase, if_neg (by omega)]

/-- What every completed erase leaves, but for its store. -/
theorem setFlash_erasedFlash_eq (s : State) :
    s.setFlash (erasedFlash s.params s.flash) = { s with
      flash := { s.flash with
        store := erasedStore s.flash
        written := true
        status := (s.flash.status &&& ~~~(1#32 <<< s.params.eraseBusyBit.val)) |||
          (1#32 <<< s.params.eraseSuccessBit.val)
        mode := .status } } := by
  rw [← eraseStatus_eq]
  rfl

/-- Settles O28: the erase of one sector of the formatted store. -/
theorem sectorEraseErasesOneSector : Obligations.SectorEraseErasesOneSector := by
  intro s hwf h hmode hrange base
  refine ⟨_, exec_flEraseExecute_ready h fun _ => hrange, erasedStore_len s.flash, fun i hlo hi => ?_,
    fun i hout => ?_, setFlash_erasedFlash_eq s⟩
  · have hin : i < (s.flash.store.format Config.flashSize).len := by
      rw [Memory.format_len]
      have hbase : base ≤ 0x0380 * 128 := Nat.mul_le_mul_right 128 hrange
      exact lt_max_of_lt_right (by show i < 131072; omega)
    exact (congrArg (Memory.read .flash · i) (erasedStore_sector hmode)).trans (read_erase_inside hlo hi hin)
  · exact (congrArg (Memory.read .flash · i) (erasedStore_sector hmode)).trans
      ((read_erase_outside _ hout).trans (read_format_flash hwf.flash ..))

theorem formattedRead_beyond {sp : Space} {size : Nat} {m : Memory} {i : Nat} (h : size ≤ i) :
    formattedRead sp size m i = m.read sp i := by
  unfold formattedRead
  split
  · rfl
  · rw [if_neg (by omega), Memory.read_outside sp (by omega)]

/-- Settles O29: the erase of the first 128KB of the formatted store. -/
theorem chipEraseErasesTheStore : Obligations.ChipEraseErasesTheStore := by
  intro s hwf h hmode
  have hrange : s.flash.mode = .sectorErase → (s.flash.erasePage.toNat &&& 0xFF80) ≤ 0x0380 := by simp [hmode]
  have hread : ∀ i, _ := fun i => congrArg (Memory.read .flash · i) (erasedStore_chip hmode)
  refine ⟨_, exec_flEraseExecute_ready h hrange, erasedStore_len s.flash, fun i hi => ?_,
    fun i hi => ?_, setFlash_erasedFlash_eq s⟩
  · have hin : i < (s.flash.store.format Config.flashSize).len := lt_max_of_lt_right hi
    exact (hread i).trans (read_erase_inside (Nat.zero_le i) (by show i < 0 + 131072; omega) hin)
  · have hout : i < 0 ∨ 0 + Config.flashSize ≤ i := .inr (by show 0 + 131072 ≤ i; omega)
    exact (hread i).trans ((read_erase_outside _ hout).trans
      ((read_format_flash hwf.flash ..).trans (formattedRead_beyond hi)))

/-- Settles O30: outside the two erase modes the formatted store is left as it is. -/
theorem eraseOutsideEraseModesErasesNothing : Obligations.EraseOutsideEraseModesErasesNothing := by
  intro s hwf h hs hc
  exact ⟨_, exec_flEraseExecute_ready h fun hm => absurd hm hs, erasedStore_len s.flash,
    fun i => (congrArg (Memory.read .flash · i) (erasedStore_other hs hc)).trans (read_format_flash hwf.flash ..),
    setFlash_erasedFlash_eq s⟩

/-! ### Programs -/

/-- Settles O31: the page buffer is a byte run laid into the formatted store, whose first 128KB hold every page. -/
theorem programCopiesThePageBuffer : Obligations.ProgramCopiesThePageBuffer := by
  intro s page hwf h hpage
  have hformat : (s.flash.store.format Config.flashSize).wf .flash = true := Memory.format_wf _ hwf.flash
  have hlen : s.flash.pageBuf.length = 128 := hwf.pageBuf
  have hread : ∀ i, (programmedFlash s.params page s.flash).store.read .flash i = _ :=
    fun i => Memory.read_writeBytes hformat (pageBase page) i s.flash.pageBuf
  have hbase : pageBase page = page.toNat * 128 := rfl
  simp only [hlen, hbase] at hread
  refine ⟨_, exec_flProgramExecute_ready h hpage, Memory.writeBytes_len .., fun i hi => ?_, fun i hi => ?_, ?_⟩
  · have hin : page.toNat * 128 + i < (s.flash.store.format Config.flashSize).len :=
      lt_max_of_lt_right (by show _ < 131072; omega)
    refine (hread _).trans ((if_pos ⟨Nat.le_add_right .., by omega, hin⟩).trans ?_)
    rw [Nat.add_sub_cancel_left]
  · exact (hread i).trans ((if_neg (by omega)).trans (read_format_flash hwf.flash ..))
  · rw [← programStatus_eq]
    rfl

/-! ### The program-busy bit -/

/-- Of the commands only `0xA5` touches the program-busy bit but to set it. -/
theorem FlashEffect.programBusy_kept {p : Params} {f f' : Flash} {i : Instr} (h : FlashEffect p f i f')
    (hp : DistinctBits p) (hi : ∀ a, i ≠ .flProgramExecute a)
    (hf : f.status.getLsbD p.programBusyBit.val = true) : f'.status.getLsbD p.programBusyBit.val = true := by
  cases h with
  | erase =>
    rw [erasedFlash_status, getLsbD_eraseStatus, hf]
    simp [hp.pB_eB]
  | program a => exact absurd rfl (hi a)
  | siliconIdMode => rw [getLsbD_setStatus, hf, Bool.true_or]
  | _ => exact hf

theorem exec_command_programBusy_kept {v : Word} {i : Instr} {s t : State} (hp : DistinctBits s.params)
    (hs : s.flash.status.getLsbD s.params.programBusyBit.val = true) (hi : decodeFlash v = some i)
    (h : exec i s = .next t) (hne : ∀ a, i ≠ .flProgramExecute a) :
    t.flash.status.getLsbD s.params.programBusyBit.val = true := by
  obtain ⟨-, ⟨info, hfatal⟩ | ⟨f, hf, rfl⟩⟩ := exec_command_next hi h
  · rw [raiseFatal_eq] at hfatal
    cases hfatal
    exact hs
  · exact hf.programBusy_kept hp hne hs

/-- The read behind a status mode command that completed returns the status from before it (R134, R140). -/
theorem exec_flashMmioRead_after {t u : State} (hu : exec .flStatusMode t = .next u) (h : t.fault.flash = none) :
    exec (.flashMmioRead 0) u = .next (u.emit (.returned t.flash.status)) := by
  rw [exec_flStatusMode_ready h] at hu
  cases hu
  exact exec_flashMmioRead_after_statusMode h

/-- Settles O27: the mode command sets the bit, every command but the program keeps it, and a status read shows it. -/
theorem siliconIdModeSetsProgramBusy : Obligations.SiliconIdModeSetsProgramBusy := by
  refine ⟨fun w hw => decode_flcmd_of_opcode hw (decodeFlash_flWord_readSiliconId _), fun s h => ⟨?_, ?_, ?_⟩⟩
  · exact exec_flReadSiliconIdMode_ready h
  · intro hp hs a t i hi hexec
    simp only [List.mem_cons, List.not_mem_nil, or_false] at hi
    have hkept := fun v i => @exec_command_programBusy_kept v i s t (distinctBits_of_paramsOk hp) hs
    obtain rfl | rfl | rfl | rfl | rfl | rfl | rfl := hi
    · exact hkept _ _ (decodeFlash_flWord_chipErase 0) hexec nofun
    · exact hkept _ _ (decodeFlash_flWord_sectorErase a) hexec nofun
    · exact hkept _ _ (decodeFlash_flWord_eraseExecute 0) hexec nofun
    · exact hkept _ _ (decodeFlash_flWord_pageProgram 0) hexec nofun
    · exact hkept _ _ (decodeFlash_flWord_status 0) hexec nofun
    · exact hkept _ _ (decodeFlash_flWord_readSiliconId 0) hexec nofun
    · exact hkept _ _ (decodeFlash_flWord_readArray 0) hexec nofun
  · intro t u ht hu
    rw [exec_flReadSiliconIdMode_ready h] at ht
    cases ht
    exact exec_flashMmioRead_after hu h

end Sys2Proof.Machine
end

section
/-! The FlashRAM bus operations (43_flashram.md R127, R137 to R147). -/

namespace Sys2Proof.Machine

/-! ### Writes -/

theorem exec_flashMmioWrite_command {s : State} {addr : Nat} {value : Word} (h : s.fault.flash = none)
    (haddr : addr % 131072 = 0x10000) :
    exec (.flashMmioWrite addr value 0xFFFFFFFF#32) s = runFlashCommand value s :=
  (unlessHalted_ready (sub := .flash) _ h).trans (if_pos (carriesCommand_iff.mpr ⟨haddr, rfl⟩))

theorem exec_flashMmioWrite_shape {s : State} {addr : Nat} {value mask : Word} (h : s.fault.flash = none)
    (hshape : addr % 131072 ≠ 0x10000 ∨ mask ≠ 0xFFFFFFFF#32) :
    exec (.flashMmioWrite addr value mask) s = raiseFatal .flashMmioShape (.mmio addr s.flash.mode) s := by
  refine (unlessHalted_ready (sub := .flash) _ h).trans (if_neg fun hc => ?_)
  obtain ⟨haddr, hmask⟩ := carriesCommand_iff.mp hc
  exact hshape.elim (· haddr) (· hmask)

/-- A command whose target lies in the store completes and tells the host nothing. -/
theorem exec_command_completes {s : State} {v : Word} {i : Instr} (h : s.fault.flash = none)
    (hi : decodeFlash v = some i)
    (herase : i = .flEraseExecute → s.flash.mode = .sectorErase → (s.flash.erasePage.toNat &&& 0xFF80) ≤ 0x0380)
    (hprogram : ∀ page : Half, i = .flProgramExecute page → page.toNat ≤ 0x03FF) :
    ∃ f, exec i s = .next (s.setFlash f) := by
  have hmem := decodeFlash_cases hi
  simp only [List.mem_cons, List.not_mem_nil, or_false] at hmem
  obtain rfl | rfl | rfl | rfl | rfl | rfl | rfl | rfl := hmem
  · exact ⟨_, exec_flChipEraseMode_ready h⟩
  · exact ⟨_, exec_flSectorEraseMode_ready h _⟩
  · exact ⟨_, exec_flEraseExecute_ready h (herase rfl)⟩
  · exact ⟨_, exec_flProgramExecute_ready h (hprogram _ rfl)⟩
  · exact ⟨_, exec_flPageProgramMode_ready h⟩
  · exact ⟨_, exec_flStatusMode_ready h⟩
  · exact ⟨_, exec_flReadSiliconIdMode_ready h⟩
  · exact ⟨_, exec_flReadArrayMode_ready h⟩

/-- Settles O33: the dispatch on the opcode is the decoder's map, and only the two range tests can stop a command. -/
theorem flashWriteRunsTheCommand : Obligations.FlashWriteRunsTheCommand := by
  intro s addr value i h haddr hi
  have hflash := decode_flcmd_ok_iff.mp hi
  have hexec : exec (.flashMmioWrite addr value 0xFFFFFFFF#32) s = exec i s :=
    (exec_flashMmioWrite_command h haddr).trans (runFlashCommand_of_some hflash s)
  refine ⟨hexec, fun herase hprogram => ?_⟩
  obtain ⟨f, hf⟩ := exec_command_completes h hflash herase hprogram
  exact ⟨_, hexec.trans hf, rfl, rfl⟩

/-! ### Reads -/

theorem mmioValue_of_readArray {f : Flash} (h : f.mode = .readArray) : mmioValue f = some 0#32 := by
  rw [mmioValue, h]

theorem mmioValue_eq_none {f : Flash} (hs : f.mode ≠ .status) (ha : f.mode ≠ .readArray) : mmioValue f = none := by
  unfold mmioValue
  split
  · exact absurd ‹_› hs
  · exact absurd ‹_› ha
  all_goals rfl

/-- Settles O35: the two modes that allow the read, each with its value. -/
theorem flashReadReturnsStatusOrDummy : Obligations.FlashReadReturnsStatusOrDummy := by
  intro s addr h haddr
  rw [← off17_eq_mod] at haddr
  exact ⟨fun hm => exec_flashMmioRead_of_value h haddr (mmioValue_of_status hm),
    fun hm => exec_flashMmioRead_of_value h haddr (mmioValue_of_readArray hm)⟩

theorem exec_flashMmioRead_shape {s : State} {addr : Nat} (h : s.fault.flash = none)
    (hshape : addr % 131072 ≠ 0 ∨ (s.flash.mode ≠ .status ∧ s.flash.mode ≠ .readArray)) :
    exec (.flashMmioRead addr) s = raiseFatal .flashMmioShape (.mmio addr s.flash.mode) s := by
  refine (unlessHalted_ready (sub := .flash) _ h).trans ?_
  rw [off17_eq_mod]
  split
  · next haddr =>
    obtain hne | ⟨hs, ha⟩ := hshape
    · exact absurd haddr hne
    · rw [mmioValue_eq_none hs ha]
  · rfl

/-! ### DMA -/

theorem exec_flashDmaRead_ready {s : State} (cart dram : Nat) (h : s.fault.flash = none)
    (hmode : s.flash.mode = .pageProgram) :
    exec (.flashDmaRead cart dram 128) s =
      .next (s.setFlash { s.flash with pageBuf := dramBytes s dram 128 }) :=
  (unlessHalted_ready (sub := .flash) _ h).trans (if_pos ⟨hmode, rfl⟩)

theorem exec_flashDmaRead_shape {s : State} {cart dram len : Nat} (h : s.fault.flash = none)
    (hshape : s.flash.mode ≠ .pageProgram ∨ len ≠ 128) :
    exec (.flashDmaRead cart dram len) s = raiseFatal .flashDmaShape (.dmaRead cart len s.flash.mode) s :=
  (unlessHalted_ready (sub := .flash) _ h).trans
    (if_neg fun ⟨hmode, hlen⟩ => hshape.elim (· hmode) (· hlen))

theorem exec_flashDmaWrite_siliconId {s : State} {cart : Nat} (dram : Nat) (h : s.fault.flash = none)
    (hmode : s.flash.mode = .readSiliconId) (hcart : cart % 131072 = 0) :
    exec (.flashDmaWrite cart dram 8) s =
      .next (dmaToDram s dram (bytesBe32 s.flash.siliconId0 ++ bytesBe32 s.flash.siliconId1)) :=
  (unlessHalted_ready (sub := .flash) _ h).trans (if_pos ⟨hmode, (off17_eq_mod cart).trans hcart, rfl⟩)

theorem exec_flashDmaWrite_array {s : State} {len : Nat} (cart dram : Nat) (h : s.fault.flash = none)
    (hmode : s.flash.mode = .readArray) (hlen : len < 0x10000) :
    exec (.flashDmaWrite cart dram len) s = .next (arrayRead cart dram len s) := by
  refine (unlessHalted_ready (sub := .flash) _ h).trans ((if_neg ?_).trans (if_pos ⟨hmode, hlen⟩))
  simp [hmode]

theorem exec_flashDmaWrite_shape {s : State} {cart dram len : Nat} (h : s.fault.flash = none)
    (hsilicon : ¬(s.flash.mode = .readSiliconId ∧ cart % 131072 = 0 ∧ len = 8))
    (harray : ¬(s.flash.mode = .readArray ∧ len < 0x10000)) :
    exec (.flashDmaWrite cart dram len) s = raiseFatal .flashDmaShape (.dmaWrite cart len s.flash.mode) s := by
  rw [← off17_eq_mod] at hsilicon
  exact (unlessHalted_ready (sub := .flash) _ h).trans ((if_neg hsilicon).trans (if_neg harray))

/-- Settles O34: the shape tests stand behind the latch; what passes none of them is the fatal of its port. -/
theorem illegalFlashShapesAreFatal : Obligations.IllegalFlashShapesAreFatal := by
  refine fun s h => ⟨fun addr value mask hshape => fatalTaken_of_raiseFatal (exec_flashMmioWrite_shape h hshape),
    fun addr value haddr hop => ?_, fun addr hshape => fatalTaken_of_raiseFatal (exec_flashMmioRead_shape h hshape),
    fun cart dram len hshape => fatalTaken_of_raiseFatal (exec_flashDmaRead_shape h hshape),
    fun cart dram len hsilicon harray => fatalTaken_of_raiseFatal (exec_flashDmaWrite_shape h hsilicon harray)⟩
  exact fatalTaken_of_raiseFatal
    ((exec_flashMmioWrite_command h haddr).trans (runFlashCommand_of_none (decodeFlash_eq_none hop) s))

theorem Memory.read_eq_ite (sp : Space) (m : Memory) (i : Nat) :
    m.read sp i = if i < m.len then m.read sp i else 0x00#8 := by
  split
  · rfl
  · exact Memory.read_outside sp (by omega)

/-- Byte `i` that a DMA takes out of main memory (20_memory.md R47, R48). -/
theorem dramBytes_getD (s : State) (dram : Nat) {len i : Nat} (hi : i < len) :
    (dramBytes s dram len).getD i 0x00#8 = s.dram.read .dram (dramIndex s.params dram i) := by
  simp [dramBytes, List.getD, hi]

/-- Settles O36: the page buffer is the list of bytes the DMA takes out of main memory. -/
theorem pageLoadFillsThePageBuffer : Obligations.PageLoadFillsThePageBuffer := by
  intro s cart dram h hmode
  exact ⟨_, exec_flashDmaRead_ready cart dram h hmode, dramBytes_length ..,
    fun i hi => (dramBytes_getD s dram hi).trans (Memory.read_eq_ite ..), rfl⟩

theorem siliconBytes_getD_low (a b : Word) {i : Nat} (hi : i < 4) :
    (bytesBe32 a ++ bytesBe32 b).getD i 0x00#8 = a.extractLsb' (24 - 8 * i) 8 := by
  rw [List.getD_append _ _ _ _ (by rw [bytesBe32_length]; exact hi), bytesBe32_getD _ hi]

theorem siliconBytes_getD_high (a b : Word) {i : Nat} (hi : i < 4) :
    (bytesBe32 a ++ bytesBe32 b).getD (4 + i) 0x00#8 = b.extractLsb' (24 - 8 * i) 8 := by
  rw [List.getD_append_right _ _ _ _ (by rw [bytesBe32_length]; omega), bytesBe32_length, Nat.add_sub_cancel_left,
    bytesBe32_getD _ hi]

/-- Settles O37: the eight bytes of the two words go to eight distinct indices. -/
theorem siliconIdReadoutDelivers : Obligations.SiliconIdReadoutDelivers := by
  intro s cart dram hwf h hmode hcart index
  refine ⟨_, exec_flashDmaWrite_siliconId dram h hmode hcart, fun i hi hl => ?_, fun i hi hl => ?_,
    fun a ha => ?_, dmaToDram_len .., dmaToDram_eq ..⟩
  · exact (dmaToDram_read hwf.dram dram _ (by simp [bytesBe32_length]; omega) hl).trans
      (siliconBytes_getD_low _ _ hi)
  · exact (dmaToDram_read hwf.dram dram _ (by simp [bytesBe32_length]; omega) hl).trans
      (siliconBytes_getD_high _ _ hi)
  · exact dmaToDram_read_other hwf.dram dram _ a ha

theorem arrayBase_eq (p : Params) (siliconId1 : Word) (cart : Nat) :
    arrayBase p siliconId1 cart = if siliconId1 ∈ p.remapX2Ids then cart % 65536 * 2 else cart % 65536 := by
  rw [arrayBase, Nat.and_two_pow_sub_one_eq_mod cart 16]

/-- Settles O38: the bytes of the formatted store from the remapped base, delivered byte by byte. -/
theorem arrayReadDeliversRemappedBytes : Obligations.ArrayReadDeliversRemappedBytes := by
  intro s cart dram len hwf h hmode hlen index base
  have hbase : arrayBase s.params s.flash.siliconId1 cart = base := arrayBase_eq ..
  refine ⟨_, exec_flashDmaWrite_array cart dram h hmode hlen, fun i hi hl => ?_, fun a ha => ?_, dmaToDram_len ..,
    rfl, fun i => read_format_flash hwf.flash .., rfl⟩
  · refine (dmaToDram_read (s := s.setFlash _) hwf.dram dram _ (by simpa using hi) hl).trans ?_
    rw [Memory.bytes_getD _ _ hi, hbase, read_format_flash hwf.flash]
    rfl
  · exact dmaToDram_read_other (s := s.setFlash _) hwf.dram dram _ a
      (by rw [Memory.bytes_length]; exact ha)

end Sys2Proof.Machine
end

section
/-! The SRAM operations (44_sram.md R160 to R165). -/

namespace Sys2Proof.Machine

/-! ### MMIO -/

theorem withAlignedSram_ready {s : State} {addr : Nat} (r : Result) (h : s.fault.sram = none)
    (ha : addr % 4 = 0) : withAlignedSram addr s r = r :=
  (unlessHalted_ready (sub := .sram) _ h).trans (if_pos ((wordAligned_iff addr).mpr ha))

theorem withAlignedSram_misaligned {s : State} {addr : Nat} (r : Result) (h : s.fault.sram = none)
    (ha : addr % 4 ≠ 0) : withAlignedSram addr s r = raiseFatal .sramMisaligned (.addr addr) s :=
  (unlessHalted_ready (sub := .sram) _ h).trans (if_neg (mt (wordAligned_iff addr).mp ha))

/-- Settles O42: the alignment test of both accesses stands before their format. -/
theorem misalignedSramAccessIsFatal : Obligations.MisalignedSramAccessIsFatal := by
  intro s addr value mask h ha i hi
  simp only [List.mem_cons, List.not_mem_nil, or_false] at hi
  obtain rfl | rfl := hi <;> exact fatalTaken_of_raiseFatal (withAlignedSram_misaligned _ h ha)

theorem exec_sramMmioRead_ready {s : State} {addr : Nat} (h : s.fault.sram = none) (ha : addr % 4 = 0) :
    exec (.sramMmioRead addr) s = .next ((sramFormat s).emit
      (.returned (wordAt .sram (s.sram.store.format Config.sramSize) (addr % 32768)))) := by
  rw [← sramIndex_eq_mod]
  exact withAlignedSram_ready _ h ha

/-- Settles O40: the word is assembled from four bytes of the formatted store. -/
theorem sramReadReturnsTheWord : Obligations.SramReadReturnsTheWord := by
  intro s addr hwf h ha old a
  have hread : ∀ i, (s.sram.store.format Config.sramSize).read .sram i = old i := read_format_sram hwf.sram _
  have hword : wordAt .sram (s.sram.store.format Config.sramSize) a =
      old a ++ (old (a + 1) ++ (old (a + 2) ++ old (a + 3))) := by
    simp only [wordAt, hread, be32]
  have hexec := exec_sramMmioRead_ready h ha
  rw [hword] at hexec
  exact ⟨_, hexec, rfl, rfl, hread, rfl⟩

/-- The store after a write of the merged word (R162). -/
def mergedStore (addr : Nat) (value mask : Word) (m : Memory) : Memory :=
  m.writeBytes .sram addr (bytesBe32 (maskedWord (wordAt .sram m addr) value mask))

theorem mergedStore_len (addr : Nat) (value mask : Word) (m : Memory) :
    (mergedStore addr value mask m).len = m.len := Memory.writeBytes_len ..

theorem exec_sramMmioWrite_ready {s : State} {addr : Nat} (value mask : Word) (h : s.fault.sram = none)
    (ha : addr % 4 = 0) :
    exec (.sramMmioWrite addr value mask) s = .next (s.setSram
      ⟨mergedStore (addr % 32768) value mask (s.sram.store.format Config.sramSize), true⟩) := by
  rw [← sramIndex_eq_mod]
  exact withAlignedSram_ready _ h ha

theorem read_mergedStore_inside {addr k : Nat} (value mask : Word) {m : Memory} (hm : m.wf .sram = true)
    (hk : k < 4) (hl : addr + k < m.len) :
    (mergedStore addr value mask m).read .sram (addr + k) =
      (m.read .sram (addr + k) &&& ~~~(mask.extractLsb' (24 - 8 * k) 8)) |||
        (value.extractLsb' (24 - 8 * k) 8 &&& mask.extractLsb' (24 - 8 * k) 8) := by
  rw [mergedStore, Memory.read_writeBytes hm, bytesBe32_length,
    if_pos ⟨Nat.le_add_right .., Nat.add_lt_add_left hk _, hl⟩, Nat.add_sub_cancel_left, maskedWord_byte _ _ _ hk,
    wordAt_byte _ _ _ hk]

theorem read_mergedStore_outside {addr i : Nat} (value mask : Word) {m : Memory} (hm : m.wf .sram = true)
    (hi : i < addr ∨ addr + 4 ≤ i) : (mergedStore addr value mask m).read .sram i = m.read .sram i :=
  Memory.read_writeBytes_other hm _ hi

/-- Settles O41: the merge is bytewise, and the aligned word lies inside the formatted store. -/
theorem sramWriteMergesUnderTheMask : Obligations.SramWriteMergesUnderTheMask := by
  intro s addr value mask hwf h ha old a
  have hformat : (s.sram.store.format Config.sramSize).wf .sram = true := Memory.format_wf _ hwf.sram
  have hread : ∀ i, (s.sram.store.format Config.sramSize).read .sram i = old i := read_format_sram hwf.sram _
  have hlen : (s.sram.store.format Config.sramSize).len = max s.sram.store.len 32768 := rfl
  have hexec := exec_sramMmioWrite_ready value mask h ha
  generalize s.sram.store.format Config.sramSize = m at hformat hread hlen hexec
  have hinside : ∀ k, k < 4 → (mergedStore (addr % 32768) value mask m).read .sram (a + k) = _ := fun k hk => by
    have hin : a + k < m.len := hlen ▸ lt_max_of_lt_right (by show addr % 32768 + k < 32768; omega)
    exact (read_mergedStore_inside value mask hformat hk hin).trans (by rw [hread])
  have houtside : ∀ i, i < a ∨ a + 4 ≤ i → (mergedStore (addr % 32768) value mask m).read .sram i = old i :=
    fun i hi => (read_mergedStore_outside value mask hformat hi).trans (hread i)
  exact ⟨_, hexec, (mergedStore_len ..).trans hlen, hinside, houtside, rfl⟩

/-! ### DMA -/

theorem exec_sramDmaRead_ready {s : State} (cart dram len : Nat) (h : s.fault.sram = none) :
    exec (.sramDmaRead cart dram len) s = .next (s.setSram
      ⟨(s.sram.store.format Config.sramSize).writeBytes .sram cart (dramBytes s dram len), true⟩) :=
  unlessHalted_ready (sub := .sram) _ h

/-- Settles O43: the bytes taken out of main memory are a byte run laid into the formatted store. -/
theorem sramDmaReadStoresBytes : Obligations.SramDmaReadStoresBytes := by
  intro s cart dram len hwf h index
  have hformat : (s.sram.store.format Config.sramSize).wf .sram = true := Memory.format_wf _ hwf.sram
  have hread : ∀ i, ((s.sram.store.format Config.sramSize).writeBytes .sram cart (dramBytes s dram len)).read .sram i
      = _ := fun i => Memory.read_writeBytes hformat cart i (dramBytes s dram len)
  simp only [dramBytes_length] at hread
  refine ⟨_, exec_sramDmaRead_ready cart dram len h, Memory.writeBytes_len .., fun i hi hl => ?_,
    fun i hi => ?_, rfl⟩
  · have hin : cart + i < (s.sram.store.format Config.sramSize).len :=
      hl.trans_eq (Memory.writeBytes_len .sram _ cart (dramBytes s dram len))
    refine (hread (cart + i)).trans ((if_pos ⟨Nat.le_add_right .., by omega, hin⟩).trans ?_)
    rw [Nat.add_sub_cancel_left, dramBytes_getD s dram hi]
    exact Memory.read_eq_ite ..
  · exact (hread i).trans ((if_neg (by omega)).trans (read_format_sram hwf.sram ..))

theorem exec_sramDmaWrite_ready {s : State} (cart dram len : Nat) (h : s.fault.sram = none) :
    exec (.sramDmaWrite cart dram len) s = .next (dmaToDram (sramFormat s) dram
      ((s.sram.store.format Config.sramSize).bytes .sram cart len)) := unlessHalted_ready (sub := .sram) _ h

/-- Settles O44: the bytes of the formatted store, delivered byte by byte. -/
theorem sramDmaWriteDeliversBytes : Obligations.SramDmaWriteDeliversBytes := by
  intro s cart dram len hwf h index
  refine ⟨_, exec_sramDmaWrite_ready cart dram len h, fun i hi hl => ?_, fun a ha => ?_, dmaToDram_len ..,
    rfl, fun i => read_format_sram hwf.sram .., rfl⟩
  · refine (dmaToDram_read (s := sramFormat s) hwf.dram dram _ (by rw [Memory.bytes_length]; exact hi) hl).trans ?_
    rw [Memory.bytes_getD _ _ hi, read_format_sram hwf.sram]
    rfl
  · exact dmaToDram_read_other (s := sramFormat s) hwf.dram dram _ a (by rw [Memory.bytes_length]; exact ha)

end Sys2Proof.Machine
end
